-- ==== Sys2Proof/Word.lean ====
section
/-! DEFINITION. The two word types of the link core: the byte of a frame and of RXQ (`10_state.md` R31), and the
32-bit word of TXQ, the codec's shift width (`10_state.md` R30, R35). -/

namespace Sys2Proof

/-- A byte of a frame, of RXQ, of `RAW`, `ID_RAW`, `resp`, `rq`, `s_req` and of `isr`. -/
abbrev Byte := BitVec 8

/-- A TXQ word: "32-bit word matching the codec's shift width" (`10_state.md` R30). -/
abbrev TxWord := BitVec 32

end Sys2Proof
end

