-- ==== Sys2Proof/Config.lean ====
section
/-! DEFINITION. What an implementation fixes (`00_scope.md` R6 to R9) with the constraints the spec puts on it
(`93_implementation_defined.md` U2, U4, U5), the spec's reference values, and the free values: the inputs of cycles that
no state lists. -/

namespace Sys2Proof

/-- The nine implementation parameters, durations in clock cycles (`00_scope.md` R6 to R9). -/
structure Params where
  /-- `N_US`, clock cycles per microsecond (R6). -/
  nUs : Nat
  /-- `QD_TX`, the depth of TXQ (R7). -/
  qdTx : Nat
  /-- `QD_RX`, the depth of RXQ (R7). -/
  qdRx : Nat
  /-- `REQ_MAX`, the capacity of the request buffer (R8). -/
  reqMax : Nat
  /-- `T_SLOT`, one bit slot (R9). -/
  tSlot : Nat
  /-- `T_SHORT`, the short pulse width (R9). -/
  tShort : Nat
  /-- `T_LONG`, the long pulse width (R9). -/
  tLong : Nat
  /-- `T_STOP_LOW`, the asserted time of the stop pulse (R9). -/
  tStopLow : Nat
  /-- `T_SETTLE`, from the detected falling edge to the sample (R9). -/
  tSettle : Nat
  deriving DecidableEq, Repr

/-- The most cycles a request of `n` bytes needs to leave the wire, from the push of its last word
(`70_reset_and_hazards.md` R281). -/
abbrev Params.sendBound (p : Params) (n : Nat) : Nat := 8 * n * p.tSlot + p.tStopLow + 2

/-- The first inequality of `70_reset_and_hazards.md` R281: a request of `n` bytes is off the wire before the timeout
(`T_TIMEOUT` is 600 microseconds, `00_scope.md` R9), so no restart cuts it. -/
abbrev Params.RestartFits (p : Params) (n : Nat) : Prop := p.sendBound n ≤ 600 * p.nUs

/-- The second inequality of `70_reset_and_hazards.md` R281: the first wait covers the request, the peripheral's
turnaround and the first response byte (`41_orchestrator.md` R180). -/
abbrev Params.ResponseFits (p : Params) (n turnaround : Nat) : Prop :=
  p.sendBound n + 8 * p.tSlot + turnaround < 600 * p.nUs

/-- The constraints of `00_scope.md` R6 to R9 and `93_implementation_defined.md` U2, U4, U5. The last two are
DEDUCED (log 18): decision D4 lets `REQ_MAX` exceed 3 "subject to" `70_reset_and_hazards.md` R281, of which the second
inequality is taken with the least turnaround, 0. -/
abbrev Params.Legal (p : Params) : Prop :=
  2 ≤ p.nUs ∧ 1 ≤ p.qdTx ∧ 1 ≤ p.qdRx ∧ 3 ≤ p.reqMax ∧
  0 < p.tShort ∧ p.tShort < p.tSettle ∧ p.tSettle < p.tLong ∧ p.tLong < p.tSlot ∧
  p.tShort + p.tLong = p.tSlot ∧ 0 < p.tStopLow ∧ max (p.tSettle + 2) p.tLong ≤ p.tSlot - 1 ∧
  (3 < p.reqMax → p.RestartFits p.reqMax ∧ p.ResponseFits p.reqMax 0)

/-- A configuration: parameters that meet the constraints. "Configurations outside the constraints: `refuse`"
(U2, U4, U5): they cannot be built. -/
structure Config extends Params where
  legal : toParams.Legal
  deriving DecidableEq, Repr

/-- The microsecond values of the table of `00_scope.md` R9 at a clock of `nUs` MHz, with the queue depths given.
PRESUMED by the spec itself (G1, G2: general knowledge, not in source); log 2. -/
abbrev Params.standard (nUs qdTx qdRx reqMax : Nat) : Params where
  nUs := nUs
  qdTx := qdTx
  qdRx := qdRx
  reqMax := reqMax
  tSlot := 4 * nUs
  tShort := nUs
  tLong := 3 * nUs
  tStopLow := nUs
  tSettle := 2 * nUs

/-- The reference values: `N_US = 4`, both depths 4, `REQ_MAX = 3` (`00_scope.md` R6 to R9). -/
def Config.reference : Config := { Params.standard 4 4 4 3 with legal := by decide }

/-! The inputs of a cycle that `State.inputs` does not list are FREE VALUES: any value
(`93_implementation_defined.md` U6, U13; `00_scope.md` R14). The argument is the number of the cycle. Log 3. -/

/-- `rst` in a cycle no state lists. -/
opaque Config.freeRst : Nat → Bool
/-- `cmd_valid` in a cycle no state lists. -/
opaque Config.freeCmdValid : Nat → Bool
/-- `cmd_op` in a cycle no state lists. -/
opaque Config.freeCmdOp : Nat → BitVec 2
/-- `cmd_arg` in a cycle no state lists. -/
opaque Config.freeCmdArg : Nat → Bool
/-- `periph_low` in a cycle no state lists. -/
opaque Config.freePeriphLow : Nat → Bool

end Sys2Proof
end

