-- ==== Sys2Proof/Syntax.lean ====
section
/-! DEFINITION. The operations of `spec/opcode_table.json`, one constructor per row (`00_scope.md` R16), and the program
notation of `30_encoding.md` R108. -/

namespace Sys2Proof

/-- The 34 operations of the opcode table. -/
inductive Instr where
  /-- Host command IDENTIFY (`42_session.md` R193). -/
  | identify
  /-- Host command POLL (`42_session.md` R194). -/
  | poll
  /-- Host command SET_RUMBLE, operand the new flag (`42_session.md` R195). -/
  | setRumble (arg : Bool)
  /-- Host command POLLR, operand the new flag (`42_session.md` R196). -/
  | pollr (arg : Bool)
  /-- `current_state()` (`42_session.md` R201). -/
  | currentState
  /-- `transfer(request, expected_response_len)` (`41_orchestrator.md` R160). -/
  | transfer (request : List Byte) (rslen : Nat)
  /-- `decode(raw)`, byte 0 in bits 63..56 as in the table's row (`43_decoder.md` R210). -/
  | decodeRaw (raw : BitVec 64)
  /-- TXQ control word with its field LENM1 (`30_encoding.md` R96). -/
  | txwC (lenm1 : BitVec 5)
  /-- TXQ data word with its field BYTE (`30_encoding.md` R97). -/
  | txwD (byte : BitVec 8)
  /-- The identify request frame (`30_encoding.md` R98). -/
  | identifyReq
  /-- The poll request frame with the rumble flag (`30_encoding.md` R99). -/
  | pollReq (rumble : Bool)
  /-- Line symbol BIT0 (`30_encoding.md` R91, R92, R94). -/
  | bit0
  /-- Line symbol BIT1 (`30_encoding.md` R91, R92, R94). -/
  | bit1
  /-- Line symbol STOP (`30_encoding.md` R93). -/
  | stop
  /-- The restart arm (`40_codec.md` R123). -/
  | armRestart
  /-- Codec arm C_IDLE (`40_codec.md` R124). -/
  | armCIdle
  /-- Codec arm C_TXWAIT (`40_codec.md` R125). -/
  | armCTxWait
  /-- Codec arm C_TXBIT (`40_codec.md` R126 to R128). -/
  | armCTxBit
  /-- Codec arm C_STOP (`40_codec.md` R129). -/
  | armCStop
  /-- Codec arm C_RXHIGH (`40_codec.md` R130). -/
  | armCRxHigh
  /-- Codec arm C_RXARM (`40_codec.md` R131). -/
  | armCRxArm
  /-- Codec arm C_RXSETTLE (`40_codec.md` R132, R133). -/
  | armCRxSettle
  /-- Codec arm C_RXPUSH (`40_codec.md` R134). -/
  | armCRxPush
  /-- Orchestrator arm O_IDLE (`41_orchestrator.md` R162). -/
  | armOIdle
  /-- Orchestrator arm O_RESET (`41_orchestrator.md` R164). -/
  | armOReset
  /-- Orchestrator arm O_CTRL (`41_orchestrator.md` R165). -/
  | armOCtrl
  /-- Orchestrator arm O_REQ (`41_orchestrator.md` R166). -/
  | armOReq
  /-- Orchestrator arm O_COLLECT (`41_orchestrator.md` R167 to R170). -/
  | armOCollect
  /-- Orchestrator arm O_SPACE (`41_orchestrator.md` R173). -/
  | armOSpace
  /-- Orchestrator arm O_DONE (`41_orchestrator.md` R174). -/
  | armODone
  /-- Session arm S_IDLE (`42_session.md` R191, R193 to R197). -/
  | armSIdle
  /-- Session arm S_START (`42_session.md` R192). -/
  | armSStart
  /-- Session arm S_WAIT (`42_session.md` R198, R199). -/
  | armSWait
  /-- The `rst` pin (`70_reset_and_hazards.md` R270). -/
  | reset
  deriving DecidableEq, Repr

/-- One line of a host program (`30_encoding.md` R108). -/
inductive HostLine where
  | reset
  | identify
  | poll
  | setRumble (b : Bool)
  | pollr (b : Bool)
  | read
  deriving DecidableEq, Repr

/-- The operation each program line stands for (`30_encoding.md` R108, R109): `read` records the status outputs. -/
def HostLine.instr : HostLine → Instr
  | .reset => .reset
  | .identify => .identify
  | .poll => .poll
  | .setRumble b => .setRumble b
  | .pollr b => .pollr b
  | .read => .currentState

end Sys2Proof
end

