-- ==== Sys2Proof/WellFormed.lean ====
section
/-! DEFINITION. Which operations are well formed. `30_encoding.md` R107 lists every reserved or illegal encoding of the
hardware: the one entry with "no defined behaviour" is (c), `transfer` operands out of range. Every other operand is
bounded by its type. -/

namespace Sys2Proof

/-- `transfer` operands in range: a request of 1 to `REQ_MAX` bytes and an expected length of 1 to 32
(`41_orchestrator.md` R160, `30_encoding.md` R107 (c)). -/
def operandsLegal (c : Config) (rqlen rslen : Nat) : Bool :=
  decide (1 ≤ rqlen) && decide (rqlen ≤ c.reqMax) && decide (1 ≤ rslen) && decide (rslen ≤ 32)

/-- Well-formedness of an operation under a configuration. -/
def wellFormed (c : Config) : Instr → Bool
  | .transfer request rslen => operandsLegal c request.length rslen
  | .identify | .poll | .setRumble _ | .pollr _ | .currentState | .decodeRaw _ => true
  | .txwC _ | .txwD _ | .identifyReq | .pollReq _ | .bit0 | .bit1 | .stop => true
  | .armRestart | .armCIdle | .armCTxWait | .armCTxBit | .armCStop => true
  | .armCRxHigh | .armCRxArm | .armCRxSettle | .armCRxPush => true
  | .armOIdle | .armOReset | .armOCtrl | .armOReq | .armOCollect | .armOSpace | .armODone => true
  | .armSIdle | .armSStart | .armSWait | .reset => true

end Sys2Proof
end

