-- ==== Sys2Proof/Decode.lean ====
section
/-! DEFINITION. The encodings of `30_encoding.md` and of `spec/opcode_table.json`: the assembly of operands (R106), the
decoder (total, rejecting by name), the encoder, and the host's `decodeTableWord`.

Which format a value has follows from WHERE it stands, not from its bits ("which of the two a word is follows from its
position in the exchange and not from any of its bits", R90): `Code` names the place. -/

namespace Sys2Proof

/-! ### The literals of the wire (`30_encoding.md` R98, R99; one place each, `93_implementation_defined.md` U9) -/

/-- The identify command byte. -/
def idCmd : Byte := 0x41#8
/-- The poll command byte. -/
def pollCmd : Byte := 0x40#8
/-- The poll sub-command byte. -/
def pollSub : Byte := 0x03#8

/-- The rumble byte `zext_8(RUMBLE)` (`30_encoding.md` R106 (c)). -/
def rumbleByte (r : Bool) : Byte := (BitVec.ofBool r).setWidth 8

/-- The bytes of the identify request (`30_encoding.md` R98). -/
def identifyFrame : List Byte := [idCmd]
/-- The bytes of the poll request (`30_encoding.md` R99). -/
def pollFrame (rumble : Bool) : List Byte := [pollCmd, pollSub, rumbleByte rumble]

/-! ### TXQ words (`30_encoding.md` R96, R97, R106) -/

/-- The control word: LENM1 in bits 31..27, the rest 0 (R96). -/
def controlWord (lenm1 : BitVec 5) : TxWord := lenm1 ++ 0#27
/-- A data word: the byte in bits 31..24, the rest 0 (R97). -/
def dataWord (b : Byte) : TxWord := b ++ 0#24
/-- The field LENM1 of a control word; bits 26..0 are ignored (R96). -/
def lenm1Of (w : TxWord) : BitVec 5 := w.extractLsb' 27 5
/-- The field BYTE of a data word; bits 23..0 are ignored (R97). -/
def byteOf (w : TxWord) : Byte := w.extractLsb' 24 8

/-! ### Line symbols (`30_encoding.md` R91 to R93); a level is `true` for high (`00_scope.md` R13) -/

/-- `t_low(b)`: BIT0 has the long asserted time, BIT1 the short one (R92). -/
def tLow (c : Config) (b : Bool) : Nat := if b then c.tShort else c.tLong
/-- The levels of one bit slot, first cycle first (R91). -/
def slotLevels (c : Config) (b : Bool) : List Bool :=
  List.replicate (tLow c b) false ++ List.replicate (c.tSlot - tLow c b) true
/-- The levels of the stop pulse (R93). -/
def stopLevels (c : Config) : List Bool := List.replicate c.tStopLow false
/-- The bits of a byte in the order they are sent, bit 7 first (`20_memory.md` R68). -/
def bitsMsbFirst (b : Byte) : List Bool := (List.range 8).map fun j => b.getLsbD (7 - j)
/-- The levels of a whole request on the wire: eight slots a byte with no gap, then STOP (`30_encoding.md` R110). -/
def requestLevels (c : Config) (request : List Byte) : List Bool :=
  (request.flatMap fun b => (bitsMsbFirst b).flatMap (slotLevels c)) ++ stopLevels c

/-! ### Host command words (`30_encoding.md` R105) -/

/-- The four values of `cmd_op`. -/
inductive HostOp where
  | identify
  | poll
  | setRumble
  | pollr
  deriving DecidableEq, Repr

/-- `cmd_op` read (R105): all four values are in use. -/
def hostOp (op : BitVec 2) : HostOp :=
  match op.getLsbD 1, op.getLsbD 0 with
  | false, false => .identify
  | false, true => .poll
  | true, false => .setRumble
  | true, true => .pollr

/-- The 2-bit code of a host operation (R105). -/
def hostOpCode : HostOp → BitVec 2
  | .identify => 0b00#2
  | .poll => 0b01#2
  | .setRumble => 0b10#2
  | .pollr => 0b11#2

/-- The 3-bit word `{cmd_op, cmd_arg}` (R105). -/
def hostCmdWord (op : BitVec 2) (arg : Bool) : BitVec 3 := op ++ BitVec.ofBool arg

/-- The command a HOSTCMD word stands for; `cmd_arg` is ignored by IDENTIFY and POLL (R105, R107). -/
def decodeHostCmd (w : BitVec 3) : Instr :=
  match hostOp (w.extractLsb' 1 2) with
  | .identify => .identify
  | .poll => .poll
  | .setRumble => .setRumble (w.getLsbD 0)
  | .pollr => .pollr (w.getLsbD 0)

/-! ### The codes -/

/-- An encoded operation, tagged with the place it stands in (the table's column "format"). -/
inductive Code where
  /-- Zero width: always in effect (CURRENT_STATE). -/
  | always
  /-- HOSTCMD, on the command port. -/
  | hostCmd (w : BitVec 3)
  /-- internal: `xfer_start` with the operand wires of `10_state.md` R23. -/
  | xfer (start : BitVec 1) (request : List Byte) (rslen : Nat)
  /-- RAWSTATE, the 64 bits at the decoder's input. -/
  | rawState (w : BitVec 64)
  /-- TXW, the first TXQ word of an exchange. -/
  | txwFirst (w : TxWord)
  /-- TXW, a later TXQ word of an exchange. -/
  | txwLater (w : TxWord)
  /-- WIREFRAME, the bytes of a request, first byte first. -/
  | wireFrame (bytes : List Byte)
  /-- SLOT, the line level of each cycle, first cycle first. -/
  | slot (levels : List Bool)
  /-- FSM-CODEC, the wire `restart`. -/
  | restartWire (w : BitVec 1)
  /-- FSM-CODEC, the register `cs`. -/
  | codecState (cs : BitVec 3)
  /-- FSM-ORCH, the register `os`. -/
  | orchState (os : BitVec 3)
  /-- FSM-SESSION, the register `ss`. -/
  | sessionState (ss : BitVec 2)
  /-- pin, `rst`. -/
  | rstPin (w : BitVec 1)
  deriving DecidableEq, Repr

/-- Why a code stands for no operation. -/
inductive DecodeRefusal where
  /-- `xfer_start` is 0: no transfer is started. -/
  | noStart
  /-- `transfer` operands out of range (`30_encoding.md` R107 (c)). -/
  | transferOperands
  /-- Bytes that are neither request frame: "no other request frame is built" (`30_encoding.md` R100). -/
  | noFrame
  /-- A waveform that is none of the three symbols (`30_encoding.md` R91 to R93). -/
  | noSymbol
  /-- `restart` is 0: the arm of `cs` runs (`40_codec.md` R120). -/
  | noRestart
  /-- `os = 7`: no orchestrator state (`10_state.md` R40). -/
  | noOrchState
  /-- `ss = 3`: no session state (`10_state.md` R47). -/
  | noSessionState
  /-- `rst` is 0: no reset. -/
  | noReset
  deriving DecidableEq, Repr

/-- The codec arm of a value of `cs` (`10_state.md` R33). -/
def decodeCodecState (cs : BitVec 3) : Instr :=
  match cs.getLsbD 2, cs.getLsbD 1, cs.getLsbD 0 with
  | false, false, false => .armCIdle
  | false, false, true => .armCTxWait
  | false, true, false => .armCTxBit
  | false, true, true => .armCStop
  | true, false, false => .armCRxHigh
  | true, false, true => .armCRxArm
  | true, true, false => .armCRxSettle
  | true, true, true => .armCRxPush

/-- The orchestrator arm of a value of `os` (`10_state.md` R40). -/
def decodeOrchState (os : BitVec 3) : Except DecodeRefusal Instr :=
  match os.getLsbD 2, os.getLsbD 1, os.getLsbD 0 with
  | false, false, false => .ok .armOIdle
  | false, false, true => .ok .armOReset
  | false, true, false => .ok .armOCtrl
  | false, true, true => .ok .armOReq
  | true, false, false => .ok .armOCollect
  | true, false, true => .ok .armOSpace
  | true, true, false => .ok .armODone
  | true, true, true => .error .noOrchState

/-- The session arm of a value of `ss` (`10_state.md` R47). -/
def decodeSessionState (ss : BitVec 2) : Except DecodeRefusal Instr :=
  match ss.getLsbD 1, ss.getLsbD 0 with
  | false, false => .ok .armSIdle
  | false, true => .ok .armSStart
  | true, false => .ok .armSWait
  | true, true => .error .noSessionState

/-- The request frame a list of bytes is (`30_encoding.md` R98 to R100). -/
def decodeFrame (bytes : List Byte) : Except DecodeRefusal Instr :=
  if bytes = identifyFrame then .ok .identifyReq
  else if bytes = pollFrame false then .ok (.pollReq false)
  else if bytes = pollFrame true then .ok (.pollReq true)
  else .error .noFrame

/-- The symbol a waveform is, by its exact shape (`30_encoding.md` R91 to R93). The codec's RECEIVER does not use this:
it samples once (R94); log 15. -/
def decodeSlot (c : Config) (levels : List Bool) : Except DecodeRefusal Instr :=
  if levels = slotLevels c false then .ok .bit0
  else if levels = slotLevels c true then .ok .bit1
  else if levels = stopLevels c then .ok .stop
  else .error .noSymbol

/-- The decoder: total, rejecting by name. -/
def decode (c : Config) : Code → Except DecodeRefusal Instr
  | .always => .ok .currentState
  | .hostCmd w => .ok (decodeHostCmd w)
  | .xfer start request rslen =>
      if start = 1#1 then
        if operandsLegal c request.length rslen then .ok (.transfer request rslen) else .error .transferOperands
      else .error .noStart
  | .rawState w => .ok (.decodeRaw w)
  | .txwFirst w => .ok (.txwC (lenm1Of w))
  | .txwLater w => .ok (.txwD (byteOf w))
  | .wireFrame bytes => decodeFrame bytes
  | .slot levels => decodeSlot c levels
  | .restartWire w => if w = 1#1 then .ok .armRestart else .error .noRestart
  | .codecState cs => .ok (decodeCodecState cs)
  | .orchState os => decodeOrchState os
  | .sessionState ss => decodeSessionState ss
  | .rstPin w => if w = 1#1 then .ok .reset else .error .noReset

/-- The encoder, from the table's column "encoding"; ignored bits are written 0. -/
def encode (c : Config) : Instr → Code
  | .identify => .hostCmd (hostCmdWord (hostOpCode .identify) false)
  | .poll => .hostCmd (hostCmdWord (hostOpCode .poll) false)
  | .setRumble arg => .hostCmd (hostCmdWord (hostOpCode .setRumble) arg)
  | .pollr arg => .hostCmd (hostCmdWord (hostOpCode .pollr) arg)
  | .currentState => .always
  | .transfer request rslen => .xfer 1#1 request rslen
  | .decodeRaw raw => .rawState raw
  | .txwC lenm1 => .txwFirst (controlWord lenm1)
  | .txwD byte => .txwLater (dataWord byte)
  | .identifyReq => .wireFrame identifyFrame
  | .pollReq rumble => .wireFrame (pollFrame rumble)
  | .bit0 => .slot (slotLevels c false)
  | .bit1 => .slot (slotLevels c true)
  | .stop => .slot (stopLevels c)
  | .armRestart => .restartWire 1#1
  | .armCIdle => .codecState 0#3
  | .armCTxWait => .codecState 1#3
  | .armCTxBit => .codecState 2#3
  | .armCStop => .codecState 3#3
  | .armCRxHigh => .codecState 4#3
  | .armCRxArm => .codecState 5#3
  | .armCRxSettle => .codecState 6#3
  | .armCRxPush => .codecState 7#3
  | .armOIdle => .orchState 0#3
  | .armOReset => .orchState 1#3
  | .armOCtrl => .orchState 2#3
  | .armOReq => .orchState 3#3
  | .armOCollect => .orchState 4#3
  | .armOSpace => .orchState 5#3
  | .armODone => .orchState 6#3
  | .armSIdle => .sessionState 0#2
  | .armSStart => .sessionState 1#2
  | .armSWait => .sessionState 2#2
  | .reset => .rstPin 1#1

/-! ### The host's question (log 6) -/

/-- The levels written in a `n`-bit SLOT pattern, "first cycle leftmost" (the table's note). -/
def patternLevels (n w : Nat) : List Bool := (List.range n).map fun i => w.testBit (n - 1 - i)

/-- The bytes written in a WIREFRAME pattern of `n` bytes, first byte leftmost (`30_encoding.md` R99). -/
def patternBytes (n w : Nat) : List Byte := (List.range n).map fun i => BitVec.ofNat 8 (w >>> (8 * (n - 1 - i)))

/-- The code that `nbits` bits with value `w` are, when only the width is known (log 6): the host's 3-bit command word,
which comes in one byte, goes before the other narrow formats; a TXQ word whose bits 26..0 are 0 is taken as a first word. -/
def tableCode (nbits w : Nat) : Option Code :=
  if 2 ^ nbits ≤ w then none
  else if nbits = 0 then some .always
  else if nbits = 8 then
    if w < 8 then some (.hostCmd (BitVec.ofNat 3 w)) else some (.wireFrame (patternBytes 1 w))
  else if nbits = 16 then some (.slot (patternLevels 16 w))
  else if nbits = 24 then some (.wireFrame (patternBytes 3 w))
  else if nbits = 32 then
    if w % 2 ^ 27 = 0 then some (.txwFirst (BitVec.ofNat 32 w)) else some (.txwLater (BitVec.ofNat 32 w))
  else if nbits = 64 then some (.rawState (BitVec.ofNat 64 w))
  else none

/-- The instruction the decoder reads from `nbits` bits with value `w`, at the reference configuration, whose slots
the table's patterns are. -/
def decodeTableWord (nbits w : Nat) : Option Instr :=
  match tableCode nbits w with
  | none => none
  | some code =>
    match decode Config.reference code with
    | .ok i => some i
    | .error _ => none

end Sys2Proof
end

