-- ==== Sys2Proof/Machine/State.lean ====
section
/-! DEFINITION. The state of the link core: every register and queue of `10_state.md`, grouped by the block that writes it
(`20_memory.md` R75), and the model's own fields (log 1, 3, 4). The reset state is `10_state.md` R56. -/

namespace Sys2Proof.Machine

/-- The values of `cs` (`10_state.md` R33). -/
inductive CState where
  | cIdle
  | cTxWait
  | cTxBit
  | cStop
  | cRxHigh
  | cRxArm
  | cRxSettle
  | cRxPush
  deriving DecidableEq, Repr

/-- The values of `os` (`10_state.md` R40). -/
inductive OState where
  | oIdle
  | oReset
  | oCtrl
  | oReq
  | oCollect
  | oSpace
  | oDone
  deriving DecidableEq, Repr

/-- The values of `ss` (`10_state.md` R47). -/
inductive SState where
  | sIdle
  | sStart
  | sWait
  deriving DecidableEq, Repr

/-- `kind`: which register receives the result (`10_state.md` R48). -/
inductive Kind where
  | kId
  | kPoll
  deriving DecidableEq, Repr

/-- The registers the codec writes (`10_state.md` R33 to R39). -/
structure Codec where
  cs : CState
  ph : Nat
  osr : TxWord
  bitc : BitVec 3
  rxn : BitVec 5
  isr : Byte
  rbit : BitVec 3
  deriving DecidableEq, Repr

/-- The registers the orchestrator writes (`10_state.md` R40 to R44). -/
structure Orch where
  os : OState
  rq : List Byte
  rqlen : Nat
  rslen : Nat
  idx : Nat
  tmr : Nat
  resp : Vector Byte 32
  deriving DecidableEq, Repr

/-- The registers the session layer writes (`10_state.md` R24 to R26, R47 to R49). -/
structure Session where
  ss : SState
  kind : Kind
  sReq : List Byte
  sRqlen : Nat
  sRslen : Nat
  raw : Vector Byte 8
  idRaw : Vector Byte 3
  rumble : Bool
  deriving DecidableEq, Repr

/-- The inputs during one cycle: `rst` (`10_state.md` R20), the command port (R21), the environment's `periph_low`
(R22). -/
structure Inputs where
  rst : Bool
  cmdValid : Bool
  cmdOp : BitVec 2
  cmdArg : Bool
  periphLow : Bool
  deriving DecidableEq, Repr

/-- Nothing presented, the peripheral released. -/
def Inputs.quiet : Inputs := ⟨false, false, 0#2, false, false⟩

/-- The nine hat positions (`30_encoding.md` R104; codes 9 to 15 are not representable, U15). -/
inductive Hat where
  | idle
  | up
  | upRight
  | right
  | downRight
  | down
  | downLeft
  | left
  | upLeft
  deriving DecidableEq, Repr

/-- The decoded controller state: 12 one-bit fields, the hat, six analog fields (`43_decoder.md` R210). -/
structure ControllerState where
  btnA : Bool
  btnB : Bool
  btnX : Bool
  btnY : Bool
  btnStart : Bool
  btnZ : Bool
  btnR : Bool
  btnL : Bool
  dpadLeft : Bool
  dpadRight : Bool
  dpadDown : Bool
  dpadUp : Bool
  hat : Hat
  lx : Byte
  ly : Byte
  rx : Byte
  ry : Byte
  lt : Byte
  rt : Byte
  deriving DecidableEq, Repr

/-- The decoded outputs of the all-zero raw state (`43_decoder.md` R222). -/
def ControllerState.zero : ControllerState :=
  ⟨false, false, false, false, false, false, false, false, false, false, false, false, .idle,
    0#8, 0#8, 0#8, 0#8, 0#8, 0#8⟩

/-- The output ports (`10_state.md` R21, R22). -/
structure Outputs where
  cmdReady : Bool
  idRaw : BitVec 24
  idNonzero : Bool
  rumbleQ : Bool
  pad : ControllerState
  driveLow : Bool
  deriving DecidableEq, Repr

/-- The machine: `S_k` (`codec`, `txq`, `rxq`, `orch`, `session`) and the model's own fields: the parameters `cfg`,
the inputs of the coming cycles, the number of the cycle, and the output ports of the last executed cycle. -/
structure State where
  cfg : Config
  codec : Codec
  txq : List TxWord
  rxq : List Byte
  orch : Orch
  session : Session
  inputs : List Inputs
  cycle : Nat
  seen : Outputs
  deriving DecidableEq, Repr

/-- Faults: none. "The hardware raises nothing" (`60_exceptions.md` R240). Nobody raises one. -/
inductive Fault where
  deriving DecidableEq, Repr

/-- Why a step has no meaning. -/
inductive Refusal where
  /-- Raised by `exec` for an operation that has no meaning yet; safe. No arm raises it. -/
  | notModelled (mnemonic : String)
  /-- Raised when a transfer is started with operands out of range: "no defined behaviour; a model refuses them"
  (`30_encoding.md` R107 (c), `93_implementation_defined.md` U3); safe. No reachable state raises it. -/
  | transferOperands
  deriving DecidableEq, Repr

/-- The codec after reset and after restart (`10_state.md` R56, `40_codec.md` R123). -/
def Codec.reset : Codec := ⟨.cIdle, 0, 0#32, 0#3, 0#5, 0#8, 0#3⟩

/-- The orchestrator after reset (`10_state.md` R56). -/
def Orch.reset (c : Config) : Orch :=
  ⟨.oIdle, List.replicate c.reqMax 0#8, 1, 1, 0, 0, Vector.replicate 32 0#8⟩

/-- The session layer after reset (`10_state.md` R56). -/
def Session.reset (c : Config) : Session :=
  ⟨.sIdle, .kId, List.replicate c.reqMax 0#8, 1, 1, Vector.replicate 8 0#8, Vector.replicate 3 0#8, false⟩

/-- The outputs of the reset state (`10_state.md` R56). -/
def Outputs.reset : Outputs := ⟨true, 0#24, false, false, .zero, false⟩

/-- The reset state under a configuration (`10_state.md` R56); the model's own fields at the values of log 3 and 4. -/
def State.resetOf (c : Config) : State where
  cfg := c
  codec := .reset
  txq := []
  rxq := []
  orch := .reset c
  session := .reset c
  inputs := []
  cycle := 0
  seen := .reset

/-- The machine right after reset, at the reference parameters (`10_state.md` R56, `70_reset_and_hazards.md` R271). -/
def State.reset : State := State.resetOf Config.reference

end Sys2Proof.Machine
end

