-- ==== Sys2Proof/Machine/Flags.lean ====
section
/-! DEFINITION. The derived signals of `10_state.md` R50 to R54: none is a register, each is a function of the registers
of the current cycle. The hardware has no condition codes. -/

namespace Sys2Proof.Machine

/-- `xfer_start = 1` exactly when `ss = S_START` (R50). -/
def xferStart (s : State) : Bool := decide (s.session.ss = .sStart)

/-- `restart = 1` exactly when `os = O_RESET` (R50). -/
def restart (s : State) : Bool := decide (s.orch.os = .oReset)

/-- `xfer_busy = 1` exactly when `os != O_IDLE` (R51). -/
def xferBusy (s : State) : Bool := !decide (s.orch.os = .oIdle)

/-- `xfer_done = 1` exactly when `os = O_DONE` (R51). -/
def xferDone (s : State) : Bool := decide (s.orch.os = .oDone)

/-- `cmd_ready = 1` exactly when `ss = S_IDLE` (R53). -/
def cmdReady (s : State) : Bool := decide (s.session.ss = .sIdle)

/-- `id_nonzero = 1` exactly when a byte of `ID_RAW` is not `0x00` (R52). -/
def idNonzero (s : State) : Bool :=
  decide (s.session.idRaw[0] ≠ 0#8 ∨ s.session.idRaw[1] ≠ 0#8 ∨ s.session.idRaw[2] ≠ 0#8)

/-- `id_raw = {ID_RAW[0], ID_RAW[1], ID_RAW[2]}` (R21). -/
def idRawPort (s : State) : BitVec 24 := s.session.idRaw[0] ++ s.session.idRaw[1] ++ s.session.idRaw[2]

/-- `drive_low` (R54, `40_codec.md` R122). -/
def driveLow (s : State) : Bool :=
  match s.codec.cs with
  | .cTxBit => decide (s.codec.ph < tLow s.cfg (s.codec.osr.getLsbD 31))
  | .cStop => true
  | .cIdle | .cTxWait | .cRxHigh | .cRxArm | .cRxSettle | .cRxPush => false

end Sys2Proof.Machine
end

