-- ==== Sys2Proof/Machine/Operands.lean ====
section
/-! DEFINITION. What the arms read: the inputs of the current cycle, the wire, the operands of a transfer, and the two
durations the document gives (`00_scope.md` R9). -/

namespace Sys2Proof.Machine

/-- The inputs of a cycle no state lists: free values (log 3). -/
def freeInputs (k : Nat) : Inputs :=
  ⟨Config.freeRst k, Config.freeCmdValid k, Config.freeCmdOp k, Config.freeCmdArg k, Config.freePeriphLow k⟩

/-- The inputs of the `k`-th cycle from the current one (`00_scope.md` R12). -/
def inputAt (s : State) (k : Nat) : Inputs :=
  match s.inputs[k]? with
  | some i => i
  | none => freeInputs (s.cycle + k)

/-- The inputs of the current cycle. -/
def input (s : State) : Inputs := inputAt s 0

/-- The level of the wire in the current cycle: wired-AND of the codec's and the peripheral's open drains
(`40_codec.md` R121, `10_state.md` R22). -/
def lineIn (s : State) : Bool := !(driveLow s || (input s).periphLow)

/-- `T_TIMEOUT`, 600 microseconds (`00_scope.md` R9). -/
def timeoutCycles (c : Config) : Nat := 600 * c.nUs

/-- `T_SPACE(q, r)` (`00_scope.md` R9, `41_orchestrator.md` R172). -/
def spaceCycles (c : Config) (q r : Nat) : Nat := (4 * (q + r) + 450) * c.nUs

/-- A request in a buffer of `REQ_MAX` bytes, the rest zero (`42_session.md` R193, R194). -/
def padRequest (c : Config) (request : List Byte) : List Byte :=
  request ++ List.replicate (c.reqMax - request.length) 0#8

/-- `LENM1 = rslen - 1` as a 5-bit number (`30_encoding.md` R106 (a)). -/
def lenm1 (rslen : Nat) : BitVec 5 := BitVec.ofNat 5 (rslen - 1)

/-- Request byte `idx` (`41_orchestrator.md` R166). -/
def requestByte (o : Orch) : Byte := o.rq.getD o.idx 0#8

/-- `{isr[6:0], b}` (`40_codec.md` R133). -/
def shiftIn (isr : Byte) (b : Bool) : Byte := isr.extractLsb' 0 7 ++ BitVec.ofBool b

/-- `resp[0..2]` (`42_session.md` R198). -/
def respId (r : Vector Byte 32) : Vector Byte 3 := #v[r[0], r[1], r[2]]

/-- `resp[0..7]` (`42_session.md` R199). -/
def respRaw (r : Vector Byte 32) : Vector Byte 8 := #v[r[0], r[1], r[2], r[3], r[4], r[5], r[6], r[7]]

/-- The eight raw bytes of a RAWSTATE value, byte 0 in bits 63..56 (the table's row DECODE). -/
def rawBytes (w : BitVec 64) : Vector Byte 8 :=
  #v[w.extractLsb' 56 8, w.extractLsb' 48 8, w.extractLsb' 40 8, w.extractLsb' 32 8,
    w.extractLsb' 24 8, w.extractLsb' 16 8, w.extractLsb' 8 8, w.extractLsb' 0 8]

end Sys2Proof.Machine
end

