-- ==== Sys2Proof/Machine/Ops.lean ====
section
/-! DEFINITION. The named operations the meanings are made of: one update per block and per queue, the queue primitives
of `20_memory.md` R62 to R65, what the codec does with a TXQ word and with a sample, the start of a transfer, the
TIMEOUT (the one thing in place of an exception, `60_exceptions.md` R247), and the building of a request.

There is no exception to take and no return (R240, R247, R248): `takeTimeout` is the whole of it, and "recovery from a
TIMEOUT needs no action". -/

namespace Sys2Proof.Machine

/-! ### Updates of one block or one queue -/

def State.setCodec (s : State) (c : Codec) : State := { s with codec := c }
def State.setOrch (s : State) (o : Orch) : State := { s with orch := o }
def State.setSession (s : State) (x : Session) : State := { s with session := x }
def State.setTxq (s : State) (q : List TxWord) : State := { s with txq := q }
def State.setRxq (s : State) (q : List Byte) : State := { s with rxq := q }
def State.setSeen (s : State) (o : Outputs) : State := { s with seen := o }
def State.setInputs (s : State) (l : List Inputs) : State := { s with inputs := l }

/-! ### Queues (`20_memory.md` R62 to R65) -/

/-- `TXQ.notfull` (R62). -/
def txNotFull (s : State) : Bool := decide (s.txq.length < s.cfg.qdTx)
/-- `RXQ.notfull` (R62). -/
def rxNotFull (s : State) : Bool := decide (s.rxq.length < s.cfg.qdRx)
/-- `TXQ.pop`: the oldest entry leaves (R64). -/
def popTx (s : State) : State := s.setTxq s.txq.tail
/-- `TXQ.push(w)`: `w` enters at the young end (R64). -/
def pushTx (w : TxWord) (s : State) : State := s.setTxq (s.txq ++ [w])
/-- `RXQ.pop` (R64). -/
def popRx (s : State) : State := s.setRxq s.rxq.tail
/-- `RXQ.push(b)` (R64). -/
def pushRx (b : Byte) (s : State) : State := s.setRxq (s.rxq ++ [b])
/-- `flush`: both queues empty (R65). -/
def flush (s : State) : State := (s.setTxq []).setRxq []

/-! ### Codec -/

/-- The codec cleared and both queues flushed, in one edge (`40_codec.md` R123). -/
def restartCodec (s : State) : State := flush (s.setCodec .reset)

/-- The codec takes a control word (`40_codec.md` R124). -/
def takeControl (l : BitVec 5) (s : State) : State :=
  (popTx s).setCodec { s.codec with rxn := l, cs := .cTxWait }

/-- The codec takes a request word and begins its first slot (`40_codec.md` R125, R128). -/
def takeData (w : TxWord) (s : State) : State :=
  (popTx s).setCodec { s.codec with osr := w, bitc := 0#3, ph := 0, cs := .cTxBit }

/-- The codec takes one sample (`40_codec.md` R133). -/
def takeSample (b : Bool) (s : State) : State :=
  if s.codec.rbit = 7#3 then
    s.setCodec { s.codec with isr := shiftIn s.codec.isr b, ph := 0, rbit := 0#3, cs := .cRxPush }
  else
    s.setCodec { s.codec with isr := shiftIn s.codec.isr b, ph := 0, rbit := s.codec.rbit + 1#3, cs := .cRxHigh }

/-! ### Orchestrator -/

/-- The start of a transfer (`41_orchestrator.md` R162), refused when the operands are out of range
(`30_encoding.md` R107 (c)). -/
def startTransfer (rq : List Byte) (rqlen rslen : Nat) (s : State) : Host.Outcome State Fault Refusal :=
  if operandsLegal s.cfg rqlen rslen then
    .next (s.setOrch
      { os := .oReset, rq := rq, rqlen := rqlen, rslen := rslen, idx := 0, tmr := 0, resp := Vector.replicate 32 0#8 })
  else .refused .transferOperands

/-- TIMEOUT (`41_orchestrator.md` R167, `60_exceptions.md` R247): `tmr <- 0`, `os <- O_SPACE` and nothing else. -/
def takeTimeout (s : State) : State := s.setOrch { s.orch with tmr := 0, os := .oSpace }

/-- A response byte is collected (`41_orchestrator.md` R168). -/
def collectByte (b : Byte) (s : State) : State :=
  let o := { s.orch with resp := s.orch.resp.setIfInBounds s.orch.idx b, tmr := 0 }
  if s.orch.idx = s.orch.rslen - 1 then (popRx s).setOrch { o with os := .oSpace }
  else (popRx s).setOrch { o with idx := s.orch.idx + 1 }

/-! ### Session layer -/

/-- The request operands of a frame: its bytes, its length, the expected response length
(`30_encoding.md` R98, R99; `10_state.md` R49). -/
def buildRequest (request : List Byte) (rslen : Nat) (s : State) : State :=
  s.setSession { s.session with sReq := padRequest s.cfg request, sRqlen := request.length, sRslen := rslen }

/-- The identify request: one byte, 3 bytes expected (`30_encoding.md` R98). -/
def buildIdentify (s : State) : State := buildRequest identifyFrame 3 s

/-- The poll request: three bytes, 8 bytes expected (`30_encoding.md` R99). -/
def buildPoll (rumble : Bool) (s : State) : State := buildRequest (pollFrame rumble) 8 s

/-- `kind <- k ; ss <- S_START`. -/
def launch (k : Kind) (s : State) : State := s.setSession { s.session with kind := k, ss := .sStart }

/-- `RUMBLE <- b`. -/
def writeRumble (b : Bool) (s : State) : State := s.setSession { s.session with rumble := b }

/-- IDENTIFY at the accepting edge (`42_session.md` R193). -/
def acceptIdentify (s : State) : State := launch .kId (buildIdentify s)

/-- POLL at the accepting edge (`42_session.md` R194). -/
def acceptPoll (s : State) : State := launch .kPoll (buildPoll s.session.rumble s)

/-- POLLR at the accepting edge (`42_session.md` R196). -/
def acceptPollr (b : Bool) (s : State) : State := launch .kPoll (buildPoll b (writeRumble b s))

/-- A command has an effect only when `cmd_ready = 1` (`42_session.md` R191). -/
def whenReady (f : State → State) (s : State) : State := if cmdReady s then f s else s

end Sys2Proof.Machine
end

