-- ==== Sys2Proof/Machine/Decoder.lean ====
section
/-! DEFINITION. The state decoder (`43_decoder.md`), the output ports (`10_state.md` R21, R22), and the meanings of
CURRENT_STATE and DECODE. -/

namespace Sys2Proof.Machine

/-- The hat of a D-pad nibble: a position only when the whole nibble is its pattern, else Idle (`43_decoder.md` R218). -/
def hatOf (n : BitVec 4) : Hat :=
  if n = 0x8#4 then .up
  else if n = 0xA#4 then .upRight
  else if n = 0x2#4 then .right
  else if n = 0x6#4 then .downRight
  else if n = 0x4#4 then .down
  else if n = 0x5#4 then .downLeft
  else if n = 0x1#4 then .left
  else if n = 0x9#4 then .upLeft
  else .idle

/-- The 4-bit code of a hat position (`30_encoding.md` R104). -/
def hatCode : Hat → BitVec 4
  | .idle => 0#4
  | .up => 1#4
  | .upRight => 2#4
  | .right => 3#4
  | .downRight => 4#4
  | .down => 5#4
  | .downLeft => 6#4
  | .left => 7#4
  | .upLeft => 8#4

/-- `decode(raw)` (`43_decoder.md` R210 to R219). -/
def padOf (raw : Vector Byte 8) : ControllerState where
  btnA := raw[0].getLsbD 0
  btnB := raw[0].getLsbD 1
  btnX := raw[0].getLsbD 2
  btnY := raw[0].getLsbD 3
  btnStart := raw[0].getLsbD 4
  btnZ := raw[1].getLsbD 4
  btnR := raw[1].getLsbD 5
  btnL := raw[1].getLsbD 6
  dpadLeft := raw[1].getLsbD 0
  dpadRight := raw[1].getLsbD 1
  dpadDown := raw[1].getLsbD 2
  dpadUp := raw[1].getLsbD 3
  hat := hatOf (raw[1].extractLsb' 0 4)
  lx := raw[2]
  ly := raw[3]
  rx := raw[4]
  ry := raw[5]
  lt := raw[6]
  rt := raw[7]

/-- All output ports of the current cycle: functions of the state alone (`00_scope.md` R12). -/
def outputs (s : State) : Outputs where
  cmdReady := cmdReady s
  idRaw := idRawPort s
  idNonzero := idNonzero s
  rumbleQ := s.session.rumble
  pad := padOf s.session.raw
  driveLow := driveLow s

/-- The decoded state of `raw` reaches the decoded outputs (log 11). -/
def showPad (raw : Vector Byte 8) (s : State) : State := s.setSeen { s.seen with pad := padOf raw }

/-- CURRENT_STATE: the decoded outputs are `decode(RAW)` (`42_session.md` R201); no register changes
(`20_memory.md` R71). -/
def execCurrentState (s : State) : Host.Outcome State Fault Refusal := .next (showPad s.session.raw s)

/-- DECODE: the decoded outputs are those of the 64 bits given (`43_decoder.md` R210); no register changes. -/
def execDecodeRaw (raw : BitVec 64) (s : State) : Host.Outcome State Fault Refusal := .next (showPad (rawBytes raw) s)

end Sys2Proof.Machine
end

