-- ==== Sys2Proof/Machine/Clock.lean ====
section
/-! DEFINITION. One clock edge (`00_scope.md` R12): which arms it runs, how their writes are put together, what the edge
does besides, and how an operation comes to be the one the next edge runs. -/

namespace Sys2Proof.Machine

/-! ### Selection -/

/-- The codec arm of this cycle: the restart arm if `restart = 1`, else the arm of `cs` (`40_codec.md` R120). -/
def codecInstr (s : State) : Instr :=
  if restart s then .armRestart
  else
    match s.codec.cs with
    | .cIdle => .armCIdle
    | .cTxWait => .armCTxWait
    | .cTxBit => .armCTxBit
    | .cStop => .armCStop
    | .cRxHigh => .armCRxHigh
    | .cRxArm => .armCRxArm
    | .cRxSettle => .armCRxSettle
    | .cRxPush => .armCRxPush

/-- The orchestrator arm of this cycle (`10_state.md` R32, R40). -/
def orchInstr (s : State) : Instr :=
  match s.orch.os with
  | .oIdle => .armOIdle
  | .oReset => .armOReset
  | .oCtrl => .armOCtrl
  | .oReq => .armOReq
  | .oCollect => .armOCollect
  | .oSpace => .armOSpace
  | .oDone => .armODone

/-- The session arm of this cycle (`10_state.md` R32, R47). -/
def sessionInstr (s : State) : Instr :=
  match s.session.ss with
  | .sIdle => .armSIdle
  | .sStart => .armSStart
  | .sWait => .armSWait

/-- The 3-bit code of a codec state (`10_state.md` R33). -/
def csCode : CState → BitVec 3
  | .cIdle => 0#3
  | .cTxWait => 1#3
  | .cTxBit => 2#3
  | .cStop => 3#3
  | .cRxHigh => 4#3
  | .cRxArm => 5#3
  | .cRxSettle => 6#3
  | .cRxPush => 7#3

/-- The 3-bit code of an orchestrator state (`10_state.md` R40). -/
def osCode : OState → BitVec 3
  | .oIdle => 0#3
  | .oReset => 1#3
  | .oCtrl => 2#3
  | .oReq => 3#3
  | .oCollect => 4#3
  | .oSpace => 5#3
  | .oDone => 6#3

/-- The 2-bit code of a session state (`10_state.md` R47). -/
def ssCode : SState → BitVec 2
  | .sIdle => 0#2
  | .sStart => 1#2
  | .sWait => 2#2

/-- The line symbol of this cycle, if there is one: the bit of `osr[31]` in a transmitted slot, STOP in `C_STOP`, the
recognised bit in the sampling cycle (`40_codec.md` R122, R133; `30_encoding.md` R94). -/
def lineSymbol (s : State) : Option Instr :=
  match s.codec.cs with
  | .cTxBit => some (if s.codec.osr.getLsbD 31 then .bit1 else .bit0)
  | .cStop => some .stop
  | .cRxSettle =>
      if s.codec.ph = s.cfg.tSettle - 1 then some (if lineIn s then .bit1 else .bit0) else none
  | .cIdle | .cTxWait | .cRxHigh | .cRxArm | .cRxPush => none

/-! ### The edge -/

/-- A queue after the edge: as the consumer leaves it, then what the producer appended (`20_memory.md` R64). `q` is the
contents during the cycle, `popped` as the consumer's arm leaves them, `pushed` as the producer's arm leaves them. -/
def mergeQueue {α : Type} (q popped pushed : List α) : List α := popped ++ pushed.drop q.length

/-- The writes of the three arms together: each block's registers from its own arm (`20_memory.md` R74, R75), the
queues by R64. -/
def mergeArms (s codec orch session : State) : State where
  cfg := s.cfg
  codec := codec.codec
  txq := mergeQueue s.txq codec.txq orch.txq
  rxq := mergeQueue s.rxq orch.rxq codec.rxq
  orch := orch.orch
  session := session.session
  inputs := s.inputs
  cycle := s.cycle
  seen := s.seen

/-- What every edge does besides: the cycle's inputs are consumed, the next cycle begins, and the output ports of the
cycle are on record (log 3, 4). -/
def tick (s t : State) : State :=
  { t with inputs := s.inputs.tail, cycle := s.cycle + 1, seen := outputs s }

/-- The first of two outcomes that is not a next state, else the continuation. -/
def andThen (x : Host.Outcome State Fault Refusal) (k : State → Host.Outcome State Fault Refusal) :
    Host.Outcome State Fault Refusal :=
  match x with
  | .next a => k a
  | .fault r => .fault r
  | .refused r => .refused r

/-- One edge with `rst = 0`, from the outcomes of the three arms on the state of the cycle. -/
def edge (s : State) (codec orch session : Host.Outcome State Fault Refusal) : Host.Outcome State Fault Refusal :=
  andThen codec fun a => andThen orch fun b => andThen session fun c => .next (tick s (mergeArms s a b c))

/-- One edge with `rst = 1`: every arm, push, pop and command of the cycle is void (`70_reset_and_hazards.md` R270). -/
def resetEdge (s : State) (r : Host.Outcome State Fault Refusal) : Host.Outcome State Fault Refusal :=
  andThen r fun a => .next (tick s a)

/-! ### Placing an operation (log 5) -/

/-- The inputs of the current cycle replaced by `i`. -/
def withInput (i : Inputs) (s : State) : State := s.setInputs (i :: s.inputs.tail)

/-- The codec at the beginning of `c`, with no restart pending. -/
def atCodec (c : CState) (s : State) : State :=
  (s.setCodec { s.codec with cs := c, ph := 0 }).setOrch
    { s.orch with os := if s.orch.os = .oReset then .oIdle else s.orch.os }

/-- The orchestrator in `o`. -/
def atOrch (o : OState) (s : State) : State := s.setOrch { s.orch with os := o }

/-- The session layer in `x`. -/
def atSession (x : SState) (s : State) : State := s.setSession { s.session with ss := x }

/-- The host presents a command in the current cycle and the session layer is ready. -/
def presented (op : HostOp) (arg : Bool) (s : State) : State :=
  withInput { Inputs.quiet with cmdValid := true, cmdOp := hostOpCode op, cmdArg := arg } (atSession .sIdle s)

/-- `s` with all that it takes for the next edge to run `i`. -/
def place (i : Instr) (s : State) : State :=
  match i with
  | .identify => presented .identify false s
  | .poll => presented .poll false s
  | .setRumble b => presented .setRumble b s
  | .pollr b => presented .pollr b s
  | .currentState => withInput .quiet s
  | .transfer request rslen =>
      withInput .quiet ((atOrch .oIdle s).setSession
        { s.session with sReq := padRequest s.cfg request, sRqlen := request.length, sRslen := rslen, ss := .sStart })
  | .decodeRaw raw => withInput .quiet (s.setSession { s.session with raw := rawBytes raw })
  | .txwC l => withInput .quiet (atCodec .cIdle (s.setTxq (controlWord l :: s.txq.tail)))
  | .txwD b => withInput .quiet (atCodec .cTxWait (s.setTxq (dataWord b :: s.txq.tail)))
  | .identifyReq => presented .identify false s
  | .pollReq r => presented .poll false (writeRumble r s)
  | .bit0 => withInput .quiet (atCodec .cTxBit (s.setCodec { s.codec with osr := 0#32 }))
  | .bit1 => withInput .quiet (atCodec .cTxBit (s.setCodec { s.codec with osr := 0x80000000#32 }))
  | .stop => withInput .quiet (atCodec .cStop s)
  | .armRestart => withInput .quiet (atOrch .oReset s)
  | .armCIdle => withInput .quiet (atCodec .cIdle s)
  | .armCTxWait => withInput .quiet (atCodec .cTxWait s)
  | .armCTxBit => withInput .quiet (atCodec .cTxBit s)
  | .armCStop => withInput .quiet (atCodec .cStop s)
  | .armCRxHigh => withInput .quiet (atCodec .cRxHigh s)
  | .armCRxArm => withInput .quiet (atCodec .cRxArm s)
  | .armCRxSettle => withInput .quiet (atCodec .cRxSettle s)
  | .armCRxPush => withInput .quiet (atCodec .cRxPush s)
  | .armOIdle => withInput .quiet (atOrch .oIdle s)
  | .armOReset => withInput .quiet (atOrch .oReset s)
  | .armOCtrl => withInput .quiet (atOrch .oCtrl s)
  | .armOReq => withInput .quiet (atOrch .oReq s)
  | .armOCollect => withInput .quiet (atOrch .oCollect s)
  | .armOSpace => withInput .quiet (atOrch .oSpace s)
  | .armODone => withInput .quiet (atOrch .oDone s)
  | .armSIdle => withInput .quiet (atSession .sIdle s)
  | .armSStart => withInput .quiet (atSession .sStart s)
  | .armSWait => withInput .quiet (atSession .sWait s)
  | .reset => withInput { Inputs.quiet with rst := true } s

/-! ### The host's side of the command port (`30_encoding.md` R108, `70_reset_and_hazards.md` R276) -/

/-- The inputs of a cycle in which the host runs a program line: `reset` holds `rst`, a command is presented in a cycle
with `cmd_ready = 1` and in no other, `read` presents nothing (`30_encoding.md` R108). -/
def hostInputs (l : HostLine) (s : State) (periphLow : Bool) : Inputs :=
  let port (op : HostOp) (arg : Bool) : Inputs :=
    { Inputs.quiet with cmdValid := cmdReady s, cmdOp := hostOpCode op, cmdArg := arg, periphLow := periphLow }
  match l with
  | .reset => { Inputs.quiet with rst := true, periphLow := periphLow }
  | .identify => port .identify false
  | .poll => port .poll false
  | .setRumble b => port .setRumble b
  | .pollr b => port .pollr b
  | .read => { Inputs.quiet with periphLow := periphLow }

end Sys2Proof.Machine
end

