-- ==== Sys2Proof/Machine/CodecArms.lean ====
section
/-! DEFINITION. The waveform codec (`40_codec.md`): the restart arm, the eight arms of `cs`, and the two TXQ words, whose
meaning is what the codec does when it takes them. An arm's meaning is its pseudocode on the state it is given; which arm
a cycle runs is `Clock.lean`'s (log 7). -/

namespace Sys2Proof.Machine

/-- ARM_RESTART (R123). -/
def execArmRestart (s : State) : Host.Outcome State Fault Refusal := .next (restartCodec s)

/-- TXW-C: the codec takes the control word, of which it keeps the length field (R124; `30_encoding.md` R96). -/
def execTxwC (l : BitVec 5) (s : State) : Host.Outcome State Fault Refusal := .next (takeControl l s)

/-- TXW-D: the codec takes the request word and begins its first slot (R125, R128; `30_encoding.md` R97). -/
def execTxwD (b : BitVec 8) (s : State) : Host.Outcome State Fault Refusal := .next (takeData (dataWord b) s)

/-- ARM_C_IDLE (R124). -/
def execArmCIdle (s : State) : Host.Outcome State Fault Refusal :=
  match s.txq with
  | [] => .next s
  | w :: _ => .next (takeControl (lenm1Of w) s)

/-- ARM_C_TXWAIT (R125). -/
def execArmCTxWait (s : State) : Host.Outcome State Fault Refusal :=
  match s.txq with
  | [] => .next s
  | w :: _ => .next (takeData w s)

/-- The last cycle of the eighth slot of a byte: the next word if one is visible, else STOP (R128). -/
def byteBoundary (s : State) : State :=
  match s.txq with
  | [] => s.setCodec { s.codec with cs := .cStop, ph := 0, bitc := 0#3 }
  | w :: _ => takeData w s

/-- ARM_C_TXBIT: inside a slot (R126), the last cycle of a slot (R127), the last cycle of a byte (R128). -/
def execArmCTxBit (s : State) : Host.Outcome State Fault Refusal :=
  if s.codec.ph < s.cfg.tSlot - 1 then .next (s.setCodec { s.codec with ph := s.codec.ph + 1 })
  else if s.codec.bitc < 7#3 then
    .next (s.setCodec { s.codec with osr := s.codec.osr <<< 1, bitc := s.codec.bitc + 1#3, ph := 0 })
  else .next (byteBoundary s)

/-- ARM_C_STOP (R129). -/
def execArmCStop (s : State) : Host.Outcome State Fault Refusal :=
  if s.codec.ph < s.cfg.tStopLow - 1 then .next (s.setCodec { s.codec with ph := s.codec.ph + 1 })
  else .next (s.setCodec { s.codec with cs := .cRxHigh, ph := 0, isr := 0#8, rbit := 0#3 })

/-- ARM_C_RXHIGH (R130). -/
def execArmCRxHigh (s : State) : Host.Outcome State Fault Refusal :=
  .next (if lineIn s then s.setCodec { s.codec with cs := .cRxArm } else s)

/-- ARM_C_RXARM (R131). -/
def execArmCRxArm (s : State) : Host.Outcome State Fault Refusal :=
  .next (if lineIn s then s else s.setCodec { s.codec with cs := .cRxSettle, ph := 0 })

/-- ARM_C_RXSETTLE: counting (R132), the sample (R133). -/
def execArmCRxSettle (s : State) : Host.Outcome State Fault Refusal :=
  if s.codec.ph < s.cfg.tSettle - 1 then .next (s.setCodec { s.codec with ph := s.codec.ph + 1 })
  else .next (takeSample (lineIn s) s)

/-- ARM_C_RXPUSH (R134). -/
def execArmCRxPush (s : State) : Host.Outcome State Fault Refusal :=
  if rxNotFull s then
    if s.codec.rxn = 0#5 then .next ((pushRx s.codec.isr s).setCodec { s.codec with cs := .cIdle })
    else .next ((pushRx s.codec.isr s).setCodec { s.codec with rxn := s.codec.rxn - 1#5, cs := .cRxHigh })
  else .next s

end Sys2Proof.Machine
end

