-- ==== Sys2Proof/Machine/Line.lean ====
section
/-! DEFINITION. The three line symbols (`30_encoding.md` R91 to R94), in the cycle at hand: what the line carries when
the codec emits the symbol, and what the codec takes when it recognises it. Log 9. -/

namespace Sys2Proof.Machine

/-- The port `drive_low` in this cycle. -/
def showDrive (b : Bool) (s : State) : State := s.setSeen { s.seen with driveLow := b }

/-- A bit symbol: in a transmitted slot (`C_TXBIT`) the line is asserted while `ph < t_low(b)` (R91, R92,
`40_codec.md` R122); in the sampling cycle of `C_RXSETTLE` the recognised bit is taken (R94, `40_codec.md` R133); in
every other cycle the codec neither emits nor recognises a symbol. -/
def bitSymbol (b : Bool) (s : State) : State :=
  match s.codec.cs with
  | .cTxBit => showDrive (decide (s.codec.ph < tLow s.cfg b)) s
  | .cRxSettle => if s.codec.ph = s.cfg.tSettle - 1 then takeSample b s else s
  | .cIdle | .cTxWait | .cStop | .cRxHigh | .cRxArm | .cRxPush => s

/-- BIT0. -/
def execBit0 (s : State) : Host.Outcome State Fault Refusal := .next (bitSymbol false s)

/-- BIT1. -/
def execBit1 (s : State) : Host.Outcome State Fault Refusal := .next (bitSymbol true s)

/-- STOP: asserted in every cycle of `C_STOP` (R93, `40_codec.md` R122); "the codec has no notion of a received stop
symbol" (R95), so in every other state it is nothing to the codec. -/
def execStop (s : State) : Host.Outcome State Fault Refusal :=
  .next (if s.codec.cs = .cStop then showDrive true s else s)

end Sys2Proof.Machine
end

