-- ==== Sys2Proof/Machine/OrchArms.lean ====
section
/-! DEFINITION. The transfer orchestrator (`41_orchestrator.md`): the operation `transfer` at the edge that starts it and
the seven arms of `os`, which carry it through. -/

namespace Sys2Proof.Machine

/-- TRANSFER: in `O_IDLE` the operands are latched and the transfer begins (R160, R162); in every other state the start
is ignored (R161). The arms below do the rest of the operation, one edge each (log 12). -/
def execTransfer (request : List Byte) (rslen : Nat) (s : State) : Host.Outcome State Fault Refusal :=
  if s.orch.os = .oIdle then startTransfer (padRequest s.cfg request) request.length rslen s else .next s

/-- ARM_O_IDLE (R162). -/
def execArmOIdle (s : State) : Host.Outcome State Fault Refusal :=
  if xferStart s then startTransfer s.session.sReq s.session.sRqlen s.session.sRslen s else .next s

/-- ARM_O_RESET, step 1 (R164): the next state, and the restart and flush that `restart = 1` makes in the same edge. -/
def execArmOReset (s : State) : Host.Outcome State Fault Refusal :=
  .next ((restartCodec s).setOrch { s.orch with os := .oCtrl })

/-- ARM_O_CTRL, step 2 (R165). -/
def execArmOCtrl (s : State) : Host.Outcome State Fault Refusal :=
  if txNotFull s then
    .next ((pushTx (controlWord (lenm1 s.orch.rslen)) s).setOrch { s.orch with idx := 0, os := .oReq })
  else .next s

/-- ARM_O_REQ, step 3 (R166). -/
def execArmOReq (s : State) : Host.Outcome State Fault Refusal :=
  if txNotFull s then
    if s.orch.idx = s.orch.rqlen - 1 then
      .next ((pushTx (dataWord (requestByte s.orch)) s).setOrch { s.orch with idx := 0, tmr := 0, os := .oCollect })
    else .next ((pushTx (dataWord (requestByte s.orch)) s).setOrch { s.orch with idx := s.orch.idx + 1 })
  else .next s

/-- ARM_O_COLLECT, step 4: the timeout first (R167), then a byte (R168), then waiting (R169). -/
def execArmOCollect (s : State) : Host.Outcome State Fault Refusal :=
  if s.orch.tmr = timeoutCycles s.cfg then .next (takeTimeout s)
  else
    match s.rxq with
    | b :: _ => .next (collectByte b s)
    | [] => .next (s.setOrch { s.orch with tmr := s.orch.tmr + 1 })

/-- ARM_O_SPACE, step 5 (R173). -/
def execArmOSpace (s : State) : Host.Outcome State Fault Refusal :=
  if s.orch.tmr = spaceCycles s.cfg s.orch.rqlen s.orch.rslen - 1 then
    .next (s.setOrch { s.orch with tmr := 0, os := .oDone })
  else .next (s.setOrch { s.orch with tmr := s.orch.tmr + 1 })

/-- ARM_O_DONE (R174). -/
def execArmODone (s : State) : Host.Outcome State Fault Refusal := .next (s.setOrch { s.orch with os := .oIdle })

end Sys2Proof.Machine
end

