-- ==== Sys2Proof/Machine/ResetPin.lean ====
section
/-! DEFINITION. The `rst` pin (`10_state.md` R20, `70_reset_and_hazards.md` R270). -/

namespace Sys2Proof.Machine

/-- RESET: every register and queue takes its reset value (`10_state.md` R56), whatever it held. The environment's
inputs, the cycle's number and the record of the outputs are no part of the hardware's state and stay. -/
def execReset (s : State) : Host.Outcome State Fault Refusal :=
  .next { State.resetOf s.cfg with inputs := s.inputs, cycle := s.cycle, seen := s.seen }

end Sys2Proof.Machine
end

