-- ==== Sys2Proof/Machine/SessionArms.lean ====
section
/-! DEFINITION. The session layer (`42_session.md`): the four host commands, the two request frames they build
(`30_encoding.md` R98, R99), and the three arms of `ss`. -/

namespace Sys2Proof.Machine

/-- IDENTIFY (R193), accepted only when `cmd_ready = 1` (R191). -/
def execIdentify (s : State) : Host.Outcome State Fault Refusal := .next (whenReady acceptIdentify s)

/-- POLL (R194), accepted only when `cmd_ready = 1` (R191). -/
def execPoll (s : State) : Host.Outcome State Fault Refusal := .next (whenReady acceptPoll s)

/-- SET_RUMBLE (R195), accepted only when `cmd_ready = 1` (R191). -/
def execSetRumble (arg : Bool) (s : State) : Host.Outcome State Fault Refusal := .next (whenReady (writeRumble arg) s)

/-- POLLR (R196), accepted only when `cmd_ready = 1` (R191). -/
def execPollr (arg : Bool) (s : State) : Host.Outcome State Fault Refusal := .next (whenReady (acceptPollr arg) s)

/-- IDENTIFY_REQ: the frame stands in the request operands (`30_encoding.md` R98; log 10). -/
def execIdentifyReq (s : State) : Host.Outcome State Fault Refusal := .next (buildIdentify s)

/-- POLL_REQ: the frame stands in the request operands (`30_encoding.md` R99; log 10). -/
def execPollReq (rumble : Bool) (s : State) : Host.Outcome State Fault Refusal := .next (buildPoll rumble s)

/-- The command on the port, at the accepting edge (`30_encoding.md` R105). -/
def acceptCommand (op : BitVec 2) (arg : Bool) : State → State :=
  match hostOp op with
  | .identify => whenReady acceptIdentify
  | .poll => whenReady acceptPoll
  | .setRumble => whenReady (writeRumble arg)
  | .pollr => whenReady (acceptPollr arg)

/-- ARM_S_IDLE: the presented command (R191), or nothing (R197). -/
def execArmSIdle (s : State) : Host.Outcome State Fault Refusal :=
  .next (if (input s).cmdValid then acceptCommand (input s).cmdOp (input s).cmdArg s else s)

/-- ARM_S_START (R192). -/
def execArmSStart (s : State) : Host.Outcome State Fault Refusal :=
  .next (s.setSession { s.session with ss := .sWait })

/-- ARM_S_WAIT: nothing until `xfer_done = 1`; then the result is stored wholesale, by `kind` (R198, R199). -/
def execArmSWait (s : State) : Host.Outcome State Fault Refusal :=
  if xferDone s then
    match s.session.kind with
    | .kId => .next (s.setSession { s.session with idRaw := respId s.orch.resp, ss := .sIdle })
    | .kPoll => .next (s.setSession { s.session with raw := respRaw s.orch.resp, ss := .sIdle })
  else .next s

end Sys2Proof.Machine
end

