-- ==== Sys2Proof/Machine/Dispatch.lean ====
section
/-! DEFINITION. One arm per operation of the opcode table. -/

namespace Sys2Proof.Machine

def exec (i : Instr) (s : State) : Host.Outcome State Fault Refusal :=
  match i with
  | .identify => Sys2Proof.Machine.execIdentify s
  | .poll => Sys2Proof.Machine.execPoll s
  | .setRumble arg => Sys2Proof.Machine.execSetRumble arg s
  | .pollr arg => Sys2Proof.Machine.execPollr arg s
  | .currentState => Sys2Proof.Machine.execCurrentState s
  | .transfer request rslen => Sys2Proof.Machine.execTransfer request rslen s
  | .decodeRaw raw => Sys2Proof.Machine.execDecodeRaw raw s
  | .txwC l => Sys2Proof.Machine.execTxwC l s
  | .txwD b => Sys2Proof.Machine.execTxwD b s
  | .identifyReq => Sys2Proof.Machine.execIdentifyReq s
  | .pollReq rumble => Sys2Proof.Machine.execPollReq rumble s
  | .bit0 => Sys2Proof.Machine.execBit0 s
  | .bit1 => Sys2Proof.Machine.execBit1 s
  | .stop => Sys2Proof.Machine.execStop s
  | .armRestart => Sys2Proof.Machine.execArmRestart s
  | .armCIdle => Sys2Proof.Machine.execArmCIdle s
  | .armCTxWait => Sys2Proof.Machine.execArmCTxWait s
  | .armCTxBit => Sys2Proof.Machine.execArmCTxBit s
  | .armCStop => Sys2Proof.Machine.execArmCStop s
  | .armCRxHigh => Sys2Proof.Machine.execArmCRxHigh s
  | .armCRxArm => Sys2Proof.Machine.execArmCRxArm s
  | .armCRxSettle => Sys2Proof.Machine.execArmCRxSettle s
  | .armCRxPush => Sys2Proof.Machine.execArmCRxPush s
  | .armOIdle => Sys2Proof.Machine.execArmOIdle s
  | .armOReset => Sys2Proof.Machine.execArmOReset s
  | .armOCtrl => Sys2Proof.Machine.execArmOCtrl s
  | .armOReq => Sys2Proof.Machine.execArmOReq s
  | .armOCollect => Sys2Proof.Machine.execArmOCollect s
  | .armOSpace => Sys2Proof.Machine.execArmOSpace s
  | .armODone => Sys2Proof.Machine.execArmODone s
  | .armSIdle => Sys2Proof.Machine.execArmSIdle s
  | .armSStart => Sys2Proof.Machine.execArmSStart s
  | .armSWait => Sys2Proof.Machine.execArmSWait s
  | .reset => Sys2Proof.Machine.execReset s

end Sys2Proof.Machine
end

