-- ==== Sys2Proof/Machine/Step.lean ====
section
/-! DEFINITION. One step: one clock edge (`00_scope.md` R12). -/

namespace Sys2Proof.Machine

/-- `step(S_k, inputs_k) = S_{k+1}`: with `rst = 1` the reset state (`70_reset_and_hazards.md` R270), else the codec arm,
the orchestrator arm and the session arm of the cycle, all on the state of the cycle (`00_scope.md` R11, R12). -/
def step (s : State) : Host.Outcome State Fault Refusal :=
  if (input s).rst then resetEdge s (exec .reset s)
  else edge s (exec (codecInstr s) s) (exec (orchInstr s) s) (exec (sessionInstr s) s)

/-- `s` with the instruction of `nbits` bits with value `w` placed where the next step runs it (log 5, log 6); `s` itself
where the bits are no instruction. -/
def State.withFetchWord (s : State) (nbits w : Nat) : State :=
  match decodeTableWord nbits w with
  | some i => place i s
  | none => s

end Sys2Proof.Machine
end

