-- ==== Sys2Proof/Safety.lean ====
section
/-! DEFINITION. What every run keeps: the ranges of the registers (`10_state.md` R34, R41 to R44), the bounds of the queues
(`20_memory.md` R62, R64), the coupling of session layer and orchestrator (`42_session.md` R200), the two frames
(`30_encoding.md` R100), and how far the codec is in the transfer (`41_orchestrator.md` R171, `70_reset_and_hazards.md`
R280, R281). Runs of several cycles are `Host.Core.run Sys2Proof.core`. -/

namespace Sys2Proof.Machine

/-- `k` cycles from `s`. -/
def cycles (k : Nat) (s : State) : Host.Outcome State Fault Refusal := Host.Core.run Sys2Proof.core k s

/-- Queues never exceed their depth (`20_memory.md` R62), and no TXQ word has a bit below 24 set (`30_encoding.md` R97:
the words the orchestrator writes). -/
abbrev State.QueuesOk (s : State) : Prop :=
  s.txq.length ≤ s.cfg.qdTx ∧ s.rxq.length ≤ s.cfg.qdRx ∧ (s.txq.all fun w => decide (w.extractLsb' 0 24 = 0#24)) = true

/-- The range of `ph` by codec state (`10_state.md` R34). In `C_STOP` it is the model's reading of `40_codec.md` R129
(log 16, DEDUCED); in the states that do not read `ph` it is 0, as the arms leave it. -/
abbrev State.PhaseOk (s : State) : Prop :=
  (s.codec.cs = .cTxBit → s.codec.ph < s.cfg.tSlot) ∧
  (s.codec.cs = .cStop → s.codec.ph < s.cfg.tStopLow) ∧
  (s.codec.cs = .cRxSettle → s.codec.ph < s.cfg.tSettle) ∧
  (s.codec.cs ≠ .cTxBit → s.codec.cs ≠ .cStop → s.codec.cs ≠ .cRxSettle → s.codec.ph = 0)

/-- The ranges of the orchestrator's and session layer's operands (`10_state.md` R41, R42, R49); no request is longer
than three bytes (`30_encoding.md` R100). -/
abbrev State.OperandsOk (s : State) : Prop :=
  s.orch.rq.length = s.cfg.reqMax ∧ s.session.sReq.length = s.cfg.reqMax ∧
  1 ≤ s.orch.rqlen ∧ s.orch.rqlen ≤ 3 ∧ 1 ≤ s.orch.rslen ∧ s.orch.rslen ≤ 32 ∧
  1 ≤ s.session.sRqlen ∧ s.session.sRqlen ≤ 3 ∧ 1 ≤ s.session.sRslen ∧ s.session.sRslen ≤ 32 ∧
  s.orch.idx ≤ 31 ∧ (s.orch.os = .oReq → s.orch.idx < s.orch.rqlen) ∧
  (s.orch.os = .oCollect → s.orch.idx < s.orch.rslen)

/-- The range of `tmr` by orchestrator state (`10_state.md` R43, `60_exceptions.md` R251); in the states that do not count
it is 0, as the arms leave it. -/
abbrev State.TimerOk (s : State) : Prop :=
  (s.orch.os = .oCollect → s.orch.tmr ≤ timeoutCycles s.cfg) ∧
  (s.orch.os = .oSpace → s.orch.tmr < spaceCycles s.cfg s.orch.rqlen s.orch.rslen) ∧
  (s.orch.os ≠ .oCollect → s.orch.os ≠ .oSpace → s.orch.tmr = 0)

/-- How many response bytes have been collected at most: what lies beyond is zero (`10_state.md` R44). -/
def State.collectedBound (s : State) : Nat :=
  match s.orch.os with
  | .oReset | .oCtrl | .oReq => 0
  | .oCollect => s.orch.idx
  | .oIdle | .oSpace | .oDone => s.orch.rslen

/-- Response bytes not collected read as zero (`10_state.md` R44, `41_orchestrator.md` R162, R175). -/
abbrev State.RespOk (s : State) : Prop := ∀ j : Fin 32, s.collectedBound ≤ j.val → s.orch.resp[j] = 0#8

/-- A transfer runs exactly while the session layer waits for one (`42_session.md` R200). -/
abbrev State.CoupledOk (s : State) : Prop := s.session.ss = .sWait ↔ s.orch.os ≠ .oIdle

/-- The request the session layer holds is one of the two frames, with the length of its response and the register
for its result (`30_encoding.md` R98 to R100, `42_session.md` R193, R194, R196). -/
abbrev Session.frameOk (c : Config) (x : Session) : Prop :=
  (x.kind = .kId ∧ x.sReq = padRequest c identifyFrame ∧ x.sRqlen = 1 ∧ x.sRslen = 3) ∨
  (x.kind = .kPoll ∧ (x.sReq = padRequest c (pollFrame false) ∨ x.sReq = padRequest c (pollFrame true)) ∧
    x.sRqlen = 3 ∧ x.sRslen = 8)

/-- Only the two frames are ever requested, and the orchestrator works on the session layer's request (R100,
`10_state.md` R41). -/
abbrev State.FramesOk (s : State) : Prop :=
  (s.session.ss ≠ .sIdle → s.session.frameOk s.cfg) ∧
  (s.orch.os ≠ .oIdle → s.orch.rq = s.session.sReq ∧ s.orch.rqlen = s.session.sRqlen ∧
    s.orch.rslen = s.session.sRslen)

/-- The invariant of the machine's registers and queues. -/
abbrev State.Inv (s : State) : Prop :=
  s.QueuesOk ∧ s.PhaseOk ∧ s.OperandsOk ∧ s.TimerOk ∧ s.RespOk ∧ s.CoupledOk ∧ s.FramesOk

/-- The codec is sending a request or waiting for its first word. -/
abbrev Codec.sending (c : Codec) : Prop := c.cs = .cTxWait ∨ c.cs = .cTxBit ∨ c.cs = .cStop

/-- Cycles the codec still needs until the request with the words in TXQ and its STOP are off the wire. -/
def State.sendCycles (s : State) : Nat :=
  match s.codec.cs with
  | .cTxWait => 1 + 8 * s.cfg.tSlot * s.txq.length + s.cfg.tStopLow
  | .cTxBit =>
      (s.cfg.tSlot - s.codec.ph) + (7 - s.codec.bitc.toNat) * s.cfg.tSlot + 8 * s.cfg.tSlot * s.txq.length +
        s.cfg.tStopLow
  | .cStop => s.cfg.tStopLow - s.codec.ph
  | .cIdle | .cRxHigh | .cRxArm | .cRxSettle | .cRxPush => 0

/-- The inequality under which the restart cannot meet a request on the wire (`70_reset_and_hazards.md` R281), for the
longest request the session layer builds. -/
abbrev State.RestartSafe (s : State) : Prop := s.cfg.RestartFits 3

/-- Outside `O_CTRL`, `O_REQ` and `O_COLLECT` the codec sends nothing and has nothing to send
(`70_reset_and_hazards.md` R280, R281). -/
abbrev State.AtRest (s : State) : Prop :=
  s.orch.os ≠ .oCtrl → s.orch.os ≠ .oReq → s.orch.os ≠ .oCollect → ¬ s.codec.sending ∧ s.txq = []

/-- In `O_CTRL` the restart has just been (`41_orchestrator.md` R164). -/
abbrev State.CtrlInStep (s : State) : Prop :=
  s.orch.os = .oCtrl → s.codec.cs = .cIdle ∧ s.txq = [] ∧ s.rxq = []

/-- In `O_REQ` the codec is about to take the control word, or waits for the first request word, or sends; and while it
sends, a request word is visible from the second cycle of each byte on (`41_orchestrator.md` R171). -/
abbrev State.ReqInStep (s : State) : Prop :=
  s.orch.os = .oReq → s.rxq = [] ∧
    ((s.codec.cs = .cIdle ∧ s.orch.idx = 0 ∧ s.txq = [controlWord (lenm1 s.orch.rslen)]) ∨
     (s.codec.cs = .cTxWait ∧ s.txq.length = s.orch.idx ∧ s.codec.rxn.toNat + 1 = s.orch.rslen) ∨
     (s.codec.cs = .cTxBit ∧ s.txq.length + 1 ≤ s.orch.idx ∧
       (s.txq = [] → s.codec.bitc = 0#3 ∧ s.codec.ph = 0) ∧ s.codec.rxn.toNat + 1 = s.orch.rslen))

/-- In `O_COLLECT` the request leaves the wire before the timeout can come (`70_reset_and_hazards.md` R281), and every
expected byte is collected, queued or still to come (`40_codec.md` R134). -/
abbrev State.CollectInStep (s : State) : Prop :=
  s.orch.os = .oCollect →
    ((s.codec.sending ∧ s.rxq = [] ∧ s.orch.idx = 0 ∧ (s.codec.cs = .cTxWait → s.txq ≠ []) ∧
        (s.codec.cs = .cStop → s.txq = []) ∧
        s.sendCycles + s.orch.tmr ≤ 8 * s.orch.rqlen * s.cfg.tSlot + s.cfg.tStopLow + 2) ∨
      (¬ s.codec.sending ∧ s.txq = [])) ∧
    (s.codec.cs = .cIdle → s.orch.idx + s.rxq.length = s.orch.rslen) ∧
    (s.codec.cs ≠ .cIdle → s.orch.idx + s.rxq.length + s.codec.rxn.toNat + 1 = s.orch.rslen)

/-- How far the codec is in the transfer, by orchestrator state. -/
abbrev State.CodecInStep (s : State) : Prop := s.AtRest ∧ s.CtrlInStep ∧ s.ReqInStep ∧ s.CollectInStep

end Sys2Proof.Machine
end

