-- ==== Sys2Proof/Certificates/Slice0/Obligations.lean ====
section
/-! DEFINITION. The statements for the provers. Each is listed in OBLIGATIONS.json. A statement about a next state as an
equation says the whole frame: what the equation does not name is unchanged. Statements that rest on a choice of the
model say so and name the log entry; statements that rest on a rule the spec marks as its own decision or derivation are
marked derived. -/

open Sys2Proof Sys2Proof.Machine

/-- For every configuration and every well-formed operation i of the opcode table, with every operand value, the
decoder reads i from the encoding of i. The place a code stands in is part of the code (30_encoding.md R90).
(30_encoding.md sections 1 to 6; 10_state.md sections 6 to 8 (codes of cs, os, ss)) -/
def Obligations.DecodeEncodeRoundTrip : Prop :=
  ∀ (c : Config) (i : Instr), wellFormed c i = true → decode c (encode c i) = .ok i

/-- From every state that meets State.Inv, a step that goes on leads to a state that meets State.Inv: queue bounds,
the ranges of ph, idx, tmr and the operands, uncollected response bytes zero, ss = S_WAIT exactly when os is not
O_IDLE, and only the two request frames. The range of ph is below T_SLOT in C_TXBIT, below T_SETTLE in
C_RXSETTLE; where ph or tmr is not used it is 0, as the arms leave it; in C_STOP ph is below T_STOP_LOW, which
is the model's reading of R129 (log 16, DEDUCED), since R34 gives 0 to T_SLOT - 1 and nothing bounds T_STOP_LOW
by a slot. (10_state.md sections 4, 6, 7, 8; 20_memory.md section 2; 42_session.md section 3 (R200, derived by
the spec); 30_encoding.md section 4; 40_codec.md section 3 (R126 to R129)) -/
def Obligations.StepKeepsInvariant : Prop :=
  ∀ s t : State, s.Inv → step s = .next t → t.Inv

/-- Under the inequality of R281 for the longest request built (three bytes), every step keeps State.CodecInStep: at
rest outside O_CTRL, O_REQ and O_COLLECT, never short of a request word, off the wire before a timeout can come,
and every expected byte collected, queued or still to come. (41_orchestrator.md section 3 (R171, derived by the
spec); 70_reset_and_hazards.md section 3 (R280, R281, derived by the spec); 40_codec.md section 4) -/
def Obligations.CodecStaysInStep : Prop :=
  ∀ s t : State, s.RestartSafe → s.Inv → s.CodecInStep → step s = .next t → t.CodecInStep

/-- From every state that meets State.Inv, step answers a next state: the hardware raises nothing, and the one
refusal of the model (transfer operands out of range) is not reached. (60_exceptions.md section 1 (R240)) -/
def Obligations.StepNeverStops : Prop :=
  ∀ s : State, s.Inv → ∃ t, step s = .next t

/-- For every number of cycles from a state that meets the invariants (under the inequality of R281), whenever the
orchestrator is in O_IDLE, O_RESET, O_SPACE or O_DONE, drive_low is 0 and the codec is in none of C_TXWAIT,
C_TXBIT and C_STOP: the restart cuts no slot short, and the spacing is a quiet interval on the hardware's side.
(70_reset_and_hazards.md section 3 (R280, R281, derived by the spec); 41_orchestrator.md section 3 (R177,
derived by the spec)) -/
def Obligations.WireReleasedOutsideExchange : Prop :=
  ∀ (k : Nat) (s t : State), s.RestartSafe → s.Inv → s.CodecInStep → cycles k s = .next t →
    (t.orch.os = .oIdle ∨ t.orch.os = .oReset ∨ t.orch.os = .oSpace ∨ t.orch.os = .oDone) →
    driveLow t = false ∧ ¬ t.codec.sending

/-- Under every legal configuration, and for every number of cycles from a state that meets State.Inv,
State.CtrlInStep and State.ReqInStep (the reset state does), if the orchestrator still has request bytes to push
(O_REQ) and the codec is in the last cycle of the eighth slot of a byte, TXQ is not empty. (41_orchestrator.md
section 3 (R171, derived by the spec); 70_reset_and_hazards.md section 3 (R282, derived by the spec)) -/
def Obligations.RequestNeverCutShort : Prop :=
  ∀ (k : Nat) (s t : State), s.Inv → s.CtrlInStep → s.ReqInStep → cycles k s = .next t →
    t.orch.os = .oReq → t.codec.cs = .cTxBit → t.codec.ph = t.cfg.tSlot - 1 → t.codec.bitc = 7#3 → t.txq ≠ []

/-- State.Inv and State.CodecInStep hold of the reset state of every configuration, and of State.reset. (The clause
of State.Inv on ph in C_STOP is the model's reading, log 16, DEDUCED.) (10_state.md section 11) -/
def Obligations.ResetMeetsInvariants : Prop :=
  (∀ c : Config, (State.resetOf c).Inv ∧ (State.resetOf c).CodecInStep) ∧ State.reset.Inv ∧ State.reset.CodecInStep

/-- exec RESET answers the next state in which every register of 10_state.md has the value R56 gives and both queues
are empty, whatever they held; the parameters, the coming inputs, the cycle number and the record of the outputs
stay (the model's own fields, log 3 and 4). (10_state.md section 11 (R56, decision D24); 70_reset_and_hazards.md
section 1 (R270)) -/
def Obligations.ResetPinLoadsResetValues : Prop :=
  ∀ s : State, exec .reset s = .next
    { cfg := s.cfg
      codec := { cs := .cIdle, ph := 0, osr := 0#32, bitc := 0#3, rxn := 0#5, isr := 0#8, rbit := 0#3 }
      txq := []
      rxq := []
      orch := { os := .oIdle, rq := List.replicate s.cfg.reqMax 0#8, rqlen := 1, rslen := 1, idx := 0, tmr := 0,
                resp := Vector.replicate 32 0#8 }
      session := { ss := .sIdle, kind := .kId, sReq := List.replicate s.cfg.reqMax 0#8, sRqlen := 1, sRslen := 1,
                   raw := Vector.replicate 8 0#8, idRaw := Vector.replicate 3 0#8, rumble := false }
      inputs := s.inputs
      cycle := s.cycle
      seen := s.seen }

/-- If rst = 1 in the cycle, step answers the reset state of the configuration (with the cycle's inputs consumed,
the cycle number advanced and the outputs of the cycle on record), whatever the state, the command port and the
line; and its outputs are those R270 lists. (70_reset_and_hazards.md section 1 (R270, decision D24); 10_state.md
section 1 (R20); 60_exceptions.md section 3 (R246, row 1)) -/
def Obligations.RstOverridesEverything : Prop :=
  ∀ s : State, (input s).rst = true →
    step s = .next { State.resetOf s.cfg with
      inputs := s.inputs.tail, cycle := s.cycle + 1, seen := outputs s } ∧
    outputs (State.resetOf s.cfg) =
      { cmdReady := true, idRaw := 0#24, idNonzero := false, rumbleQ := false, pad := .zero, driveLow := false }

/-- When ss = S_IDLE, exec IDENTIFY answers the next state with s_req = 0x41 followed by zeros, s_rqlen = 1, s_rslen
= 3, kind = K_ID, ss = S_START, and nothing else changed; RAW and RUMBLE are untouched. (R193) -/
def Obligations.IdentifyAtAcceptance : Prop :=
  ∀ s : State, s.session.ss = .sIdle →
    exec .identify s = .next { s with session := { s.session with
      sReq := 0x41#8 :: List.replicate (s.cfg.reqMax - 1) 0#8, sRqlen := 1, sRslen := 3, kind := .kId, ss := .sStart } }

/-- When ss = S_IDLE, exec POLL answers the next state with s_req = 0x40, 0x03, the flag as 0x00 or 0x01, zeros;
s_rqlen = 3, s_rslen = 8, kind = K_POLL, ss = S_START, and nothing else changed. The flag is RUMBLE in the
accepting cycle. (R194) -/
def Obligations.PollAtAcceptance : Prop :=
  ∀ s : State, s.session.ss = .sIdle →
    exec .poll s = .next { s with session := { s.session with
      sReq := 0x40#8 :: 0x03#8 :: (if s.session.rumble then 0x01#8 else 0x00#8) ::
        List.replicate (s.cfg.reqMax - 3) 0#8,
      sRqlen := 3, sRslen := 8, kind := .kPoll, ss := .sStart } }

/-- When ss = S_IDLE, exec SET_RUMBLE b answers the next state with RUMBLE = b and nothing else changed (ss stays
S_IDLE, so cmd_ready stays 1; no transfer is started); when ss is not S_IDLE nothing changes. (R195) -/
def Obligations.SetRumbleAtAcceptance : Prop :=
  ∀ (s : State) (b : Bool),
    (s.session.ss = .sIdle → ∃ t, exec (.setRumble b) s = .next t ∧
      t = { s with session := { s.session with rumble := b } } ∧ cmdReady t = true ∧ xferStart t = false ∧
      driveLow t = driveLow s) ∧
    (s.session.ss ≠ .sIdle → exec (.setRumble b) s = .next s)

/-- When ss = S_IDLE, exec POLLR b answers the next state with RUMBLE = b and the poll request with flag b, and
nothing else changed; that state is the one POLL answers from the state SET_RUMBLE b answers (R196, the spec's
decision D18). (42_session.md section 2 (R196, decision D18); 30_encoding.md section 9 (R109)) -/
def Obligations.PollrIsSetRumbleThenPoll : Prop :=
  ∀ (s : State) (b : Bool), s.session.ss = .sIdle →
    exec (.pollr b) s = .next { s with session := { s.session with
      rumble := b,
      sReq := 0x40#8 :: 0x03#8 :: (if b then 0x01#8 else 0x00#8) :: List.replicate (s.cfg.reqMax - 3) 0#8,
      sRqlen := 3, sRslen := 8, kind := .kPoll, ss := .sStart } } ∧
    ∃ t, exec (.setRumble b) s = .next t ∧ exec (.pollr b) s = exec .poll t

/-- When ss is not S_IDLE, exec of each of the four host commands answers the state unchanged: the command is
ignored and not remembered. (42_session.md section 1 (R191, decisions D17, D27)) -/
def Obligations.CommandsIgnoredWhenBusy : Prop :=
  ∀ (s : State) (b : Bool), s.session.ss ≠ .sIdle →
    exec .identify s = .next s ∧ exec .poll s = .next s ∧ exec (.setRumble b) s = .next s ∧
    exec (.pollr b) s = .next s

/-- exec IDENTIFY_REQ answers the next state whose request operands are the frame 0x41 with response length 3, exec
POLL_REQ r the frame 0x40, 0x03, r with response length 8, padded with zeros; nothing else changes. That a
frame's meaning is its place in s_req is the model's reading (log 10). (30_encoding.md section 4 (R98, R99);
10_state.md section 8 (R49)) -/
def Obligations.RequestFramesAreBuilt : Prop :=
  ∀ (s : State) (r : Bool),
    exec .identifyReq s = .next { s with session := { s.session with
      sReq := 0x41#8 :: List.replicate (s.cfg.reqMax - 1) 0#8, sRqlen := 1, sRslen := 3 } } ∧
    exec (.pollReq r) s = .next { s with session := { s.session with
      sReq := 0x40#8 :: 0x03#8 :: (if r then 0x01#8 else 0x00#8) :: List.replicate (s.cfg.reqMax - 3) 0#8,
      sRqlen := 3, sRslen := 8 } }

/-- exec CURRENT_STATE answers the next state in which the decoded outputs on record are: the buttons of byte 0 and
byte 1 and the D-pad booleans bit for bit, the hat of the low nibble of byte 1, and the six analog bytes copied;
no register, queue or input changes. The D-pad bits other than Up are the spec's decision D21, the hat is stated
through hatOf, the table of R218 (D22, D23). That the outputs are put on record in the field seen is the model's
choice (log 4, 11). (43_decoder.md (R211, R212, R214, R218, R219, decisions D21, D22, D23); 42_session.md
section 4 (R201)) -/
def Obligations.CurrentStateShowsDecode : Prop :=
  ∀ s : State, exec .currentState s = .next { s with seen := { s.seen with pad :=
    { btnA := s.session.raw[0].getLsbD 0, btnB := s.session.raw[0].getLsbD 1, btnX := s.session.raw[0].getLsbD 2,
      btnY := s.session.raw[0].getLsbD 3, btnStart := s.session.raw[0].getLsbD 4,
      btnZ := s.session.raw[1].getLsbD 4, btnR := s.session.raw[1].getLsbD 5, btnL := s.session.raw[1].getLsbD 6,
      dpadLeft := s.session.raw[1].getLsbD 0, dpadRight := s.session.raw[1].getLsbD 1,
      dpadDown := s.session.raw[1].getLsbD 2, dpadUp := s.session.raw[1].getLsbD 3,
      hat := hatOf (s.session.raw[1].extractLsb' 0 4),
      lx := s.session.raw[2], ly := s.session.raw[3], rx := s.session.raw[4], ry := s.session.raw[5],
      lt := s.session.raw[6], rt := s.session.raw[7] } } }

/-- exec DECODE w answers the next state in which the decoded outputs on record are read from w with RAW[0] in bits
63..56: A is bit 56, Start bit 60, the D-pad bits 48 to 51, Z, R, L bits 52 to 54, the analog bytes below;
nothing else changes. The D-pad positions other than Up are the spec's decision D21, the hat is stated through
hatOf, the table of R218 (D22, D23). That the outputs are put on record in the field seen is the model's choice
(log 4, 11). (43_decoder.md (R210 to R219, decisions D21, D22, D23); 30_encoding.md section 5 (R101, R102)) -/
def Obligations.DecodeReadsItsBits : Prop :=
  ∀ (w : BitVec 64) (s : State), exec (.decodeRaw w) s = .next { s with seen := { s.seen with pad :=
    { btnA := w.getLsbD 56, btnB := w.getLsbD 57, btnX := w.getLsbD 58, btnY := w.getLsbD 59, btnStart := w.getLsbD 60,
      btnZ := w.getLsbD 52, btnR := w.getLsbD 53, btnL := w.getLsbD 54,
      dpadLeft := w.getLsbD 48, dpadRight := w.getLsbD 49, dpadDown := w.getLsbD 50, dpadUp := w.getLsbD 51,
      hat := hatOf (w.extractLsb' 48 4),
      lx := w.extractLsb' 40 8, ly := w.extractLsb' 32 8, rx := w.extractLsb' 24 8, ry := w.extractLsb' 16 8,
      lt := w.extractLsb' 8 8, rt := w.extractLsb' 0 8 } } }

/-- For every eight raw bytes, the code of the decoded hat is the entry of R218's table for RAW[1] mod 16, and every
code is at most 8. (43_decoder.md (R218, decisions D21, D22, D23); 30_encoding.md section 5 (R104)) -/
def Obligations.HatFollowsTheTable : Prop :=
  ∀ raw : Vector Byte 8,
    (hatCode (padOf raw).hat).toNat =
      [0, 7, 3, 0, 5, 6, 4, 0, 1, 8, 2, 0, 0, 0, 0, 0].getD (raw[1].toNat % 16) 0 ∧
    (hatCode (padOf raw).hat).toNat ≤ 8

/-- decode gives the same outputs for two raw states if and only if their bytes 0 agree in bits 4..0, their bytes 1
in bits 6..0, and their bytes 2 to 7 are equal. (43_decoder.md (R213, R223, decision D31)) -/
def Obligations.DecoderLosesExactlyFourBits : Prop :=
  ∀ r r' : Vector Byte 8, padOf r = padOf r' ↔
    (r[0] &&& 0x1F#8 = r'[0] &&& 0x1F#8 ∧ r[1] &&& 0x7F#8 = r'[1] &&& 0x7F#8 ∧ r[2] = r'[2] ∧ r[3] = r'[3] ∧
      r[4] = r'[4] ∧ r[5] = r'[5] ∧ r[6] = r'[6] ∧ r[7] = r'[7])

/-- exec TXW-C l answers the next state with rxn = l, cs = C_TXWAIT and the head of TXQ gone; exec TXW-D b the next
state with the byte in bits 31..24 of osr and zeros below, bitc = 0, ph = 0, cs = C_TXBIT and the head gone;
nothing else changes. That a word's meaning is its being taken is the model's reading (log 8). (40_codec.md
section 3 (R124, R125, R128); 30_encoding.md section 3 (R96, R97)) -/
def Obligations.CodecTakesTxqWords : Prop :=
  ∀ (s : State) (l : BitVec 5) (b : BitVec 8),
    exec (.txwC l) s = .next { s with txq := s.txq.tail, codec := { s.codec with rxn := l, cs := .cTxWait } } ∧
    exec (.txwD b) s = .next { s with
      txq := s.txq.tail, codec := { s.codec with osr := b ++ 0#24, bitc := 0#3, ph := 0, cs := .cTxBit } }

/-- When os = O_IDLE, the request has 1 to REQ_MAX bytes and the expected length is 1 to 32, exec TRANSFER answers
the next state with rq the request padded with zeros, rqlen and rslen its lengths, resp all zero, idx = 0, tmr =
0, os = O_RESET, and nothing else changed. That the rest of the buffer rq is filled with zeros for an arbitrary
request is the model's choice (log 12, DEDUCED from the session layer's own requests, R193 and R194: R160 and
R162 do not say it), and so is that the operation is its starting edge, which the arms carry through (log 12).
(41_orchestrator.md sections 1, 2 (R160, R162)) -/
def Obligations.TransferStartsWhenIdle : Prop :=
  ∀ (s : State) (request : List Byte) (n : Nat), s.orch.os = .oIdle →
    1 ≤ request.length → request.length ≤ s.cfg.reqMax → 1 ≤ n → n ≤ 32 →
    exec (.transfer request n) s = .next { s with orch :=
      { os := .oReset, rq := request ++ List.replicate (s.cfg.reqMax - request.length) 0#8, rqlen := request.length,
        rslen := n, idx := 0, tmr := 0, resp := Vector.replicate 32 0#8 } }

/-- When os is not O_IDLE, exec TRANSFER answers the state unchanged. When os = O_IDLE and an operand is out of
range, it answers the refusal transferOperands; so does the O_IDLE arm when a start with such operands is
raised. (41_orchestrator.md section 1 (R161); 30_encoding.md section 8 (R107 (c))) -/
def Obligations.TransferOtherwise : Prop :=
  ∀ (s : State) (request : List Byte) (n : Nat),
    (s.orch.os ≠ .oIdle → exec (.transfer request n) s = .next s) ∧
    (s.orch.os = .oIdle → ¬ (1 ≤ request.length ∧ request.length ≤ s.cfg.reqMax ∧ 1 ≤ n ∧ n ≤ 32) →
      exec (.transfer request n) s = .refused .transferOperands) ∧
    (s.session.ss = .sStart →
      ¬ (1 ≤ s.session.sRqlen ∧ s.session.sRqlen ≤ s.cfg.reqMax ∧ 1 ≤ s.session.sRslen ∧ s.session.sRslen ≤ 32) →
      exec .armOIdle s = .refused .transferOperands)

/-- In a transmitted slot, exec BIT0 puts drive_low = (ph < T_LONG) on record and BIT1 (ph < T_SHORT); in the
sampling cycle the recognised bit is shifted into isr from below and rbit, cs, ph go on as after a sample (the
eighth to C_RXPUSH); in every other cycle nothing changes. One exec is one cycle of the symbol (the model's
reading, log 9). (30_encoding.md section 2 (R91, R92, R94, decisions D5, D6, D8, D10); 40_codec.md sections 1, 4
(R122, R133)) -/
def Obligations.BitSymbolsSentAndTaken : Prop :=
  ∀ s : State,
    (s.codec.cs = .cTxBit →
      exec .bit0 s = .next { s with seen := { s.seen with driveLow := decide (s.codec.ph < s.cfg.tLong) } } ∧
      exec .bit1 s = .next { s with seen := { s.seen with driveLow := decide (s.codec.ph < s.cfg.tShort) } }) ∧
    (s.codec.cs = .cRxSettle → s.codec.ph = s.cfg.tSettle - 1 → s.codec.rbit ≠ 7#3 →
      exec .bit0 s = .next { s with codec := { s.codec with
        isr := s.codec.isr <<< 1, ph := 0, rbit := s.codec.rbit + 1#3, cs := .cRxHigh } } ∧
      exec .bit1 s = .next { s with codec := { s.codec with
        isr := s.codec.isr <<< 1 ||| 1#8, ph := 0, rbit := s.codec.rbit + 1#3, cs := .cRxHigh } }) ∧
    (s.codec.cs = .cRxSettle → s.codec.ph = s.cfg.tSettle - 1 → s.codec.rbit = 7#3 →
      exec .bit0 s = .next { s with codec := { s.codec with
        isr := s.codec.isr <<< 1, ph := 0, rbit := 0#3, cs := .cRxPush } } ∧
      exec .bit1 s = .next { s with codec := { s.codec with
        isr := s.codec.isr <<< 1 ||| 1#8, ph := 0, rbit := 0#3, cs := .cRxPush } }) ∧
    (s.codec.cs ≠ .cTxBit → (s.codec.cs = .cRxSettle → s.codec.ph ≠ s.cfg.tSettle - 1) →
      exec .bit0 s = .next s ∧ exec .bit1 s = .next s)

/-- exec STOP answers the next state with drive_low = 1 on record in C_STOP, and the state unchanged in every other
codec state (log 9). (30_encoding.md section 2 (R93, R95, decisions D7, D30); 40_codec.md section 1 (R122)) -/
def Obligations.StopSymbolSent : Prop :=
  ∀ s : State,
    (s.codec.cs = .cStop → exec .stop s = .next { s with seen := { s.seen with driveLow := true } }) ∧
    (s.codec.cs ≠ .cStop → exec .stop s = .next s)

/-- exec ARM_RESTART, whatever cs is, answers the next state with cs = C_IDLE, the other codec registers 0, both
queues empty, and nothing else changed. (40_codec.md section 2 (R123, decision D12); 20_memory.md section 2
(R65)) -/
def Obligations.RestartArmClearsCodec : Prop :=
  ∀ s : State, exec .armRestart s = .next { s with
    codec := { cs := .cIdle, ph := 0, osr := 0#32, bitc := 0#3, rxn := 0#5, isr := 0#8, rbit := 0#3 }
    txq := []
    rxq := [] }

/-- exec ARM_C_IDLE: with a word w at the head of TXQ, rxn becomes bits 31..27 of w (and no other bit matters), w is
popped, cs = C_TXWAIT, nothing else changes; with TXQ empty nothing changes. In C_IDLE drive_low is 0. (R124) -/
def Obligations.CIdleTakesControlWord : Prop :=
  ∀ s : State,
    (∀ w q, s.txq = w :: q → exec .armCIdle s = .next { s with
      txq := q, codec := { s.codec with rxn := BitVec.ofNat 5 (w.toNat / 2 ^ 27), cs := .cTxWait } }) ∧
    (s.txq = [] → exec .armCIdle s = .next s) ∧
    (s.codec.cs = .cIdle → driveLow s = false)

/-- exec ARM_C_TXWAIT: with a word w at the head of TXQ, osr = w, bitc = 0, ph = 0, cs = C_TXBIT, w is popped,
nothing else changes; with TXQ empty nothing changes. In C_TXWAIT drive_low is 0. (40_codec.md section 3 (R125,
decision D11)) -/
def Obligations.CTxWaitTakesFirstWord : Prop :=
  ∀ s : State,
    (∀ w q, s.txq = w :: q → exec .armCTxWait s = .next { s with
      txq := q, codec := { s.codec with osr := w, bitc := 0#3, ph := 0, cs := .cTxBit } }) ∧
    (s.txq = [] → exec .armCTxWait s = .next s) ∧
    (s.codec.cs = .cTxWait → driveLow s = false)

/-- exec ARM_C_TXBIT: inside a slot ph advances; in the last cycle of a slot with bitc < 7, osr shifts left by one,
bitc advances, ph = 0; in the last cycle of the eighth slot the next word is taken if TXQ has one, else cs =
C_STOP with ph = 0 and bitc = 0; nothing else changes. In C_TXBIT the line is asserted exactly while ph <
t_low(osr[31]). (40_codec.md section 3 (R126, R127, R128, decisions D9, D11); 40_codec.md section 1 (R122)) -/
def Obligations.CTxBitSendsSlots : Prop :=
  ∀ s : State,
    (s.codec.ph < s.cfg.tSlot - 1 →
      exec .armCTxBit s = .next { s with codec := { s.codec with ph := s.codec.ph + 1 } }) ∧
    (s.codec.ph = s.cfg.tSlot - 1 → s.codec.bitc.toNat < 7 → ∃ t, exec .armCTxBit s = .next t ∧
      t.codec.osr.toNat = 2 * s.codec.osr.toNat % 2 ^ 32 ∧ t.codec.bitc.toNat = s.codec.bitc.toNat + 1 ∧
      t.codec.ph = 0 ∧
      t = { s with codec := { s.codec with osr := t.codec.osr, bitc := t.codec.bitc, ph := 0 } }) ∧
    (s.codec.ph = s.cfg.tSlot - 1 → s.codec.bitc = 7#3 → ∀ w q, s.txq = w :: q →
      exec .armCTxBit s = .next { s with
        txq := q, codec := { s.codec with osr := w, bitc := 0#3, ph := 0, cs := .cTxBit } }) ∧
    (s.codec.ph = s.cfg.tSlot - 1 → s.codec.bitc = 7#3 → s.txq = [] →
      exec .armCTxBit s = .next { s with codec := { s.codec with cs := .cStop, ph := 0, bitc := 0#3 } }) ∧
    (s.codec.cs = .cTxBit →
      (driveLow s = true ↔
        s.codec.ph < (if 2 ^ 31 ≤ s.codec.osr.toNat then s.cfg.tShort else s.cfg.tLong)))

/-- exec ARM_C_STOP: while ph < T_STOP_LOW - 1, ph advances; at ph = T_STOP_LOW - 1, cs = C_RXHIGH, ph = 0, isr = 0,
rbit = 0; nothing else changes. In C_STOP drive_low is 1. (40_codec.md section 3 (R129, decision D7)) -/
def Obligations.CStopThenListens : Prop :=
  ∀ s : State,
    (s.codec.ph < s.cfg.tStopLow - 1 →
      exec .armCStop s = .next { s with codec := { s.codec with ph := s.codec.ph + 1 } }) ∧
    (s.codec.ph = s.cfg.tStopLow - 1 →
      exec .armCStop s = .next { s with codec := { s.codec with cs := .cRxHigh, ph := 0, isr := 0#8, rbit := 0#3 } }) ∧
    (s.codec.cs = .cStop → driveLow s = true)

/-- exec ARM_C_RXHIGH: if the line is high (neither the codec nor the peripheral pulls it low), cs = C_RXARM and
nothing else changes; otherwise nothing changes. (R130) -/
def Obligations.CRxHighArmsOnHighLine : Prop :=
  ∀ s : State,
    ((driveLow s = false ∧ (input s).periphLow = false) →
      exec .armCRxHigh s = .next { s with codec := { s.codec with cs := .cRxArm } }) ∧
    (¬ (driveLow s = false ∧ (input s).periphLow = false) → exec .armCRxHigh s = .next s)

/-- exec ARM_C_RXARM: if the line is low (the codec or the peripheral pulls it), cs = C_RXSETTLE, ph = 0 and nothing
else changes; otherwise nothing changes. (R131) -/
def Obligations.CRxArmDetectsFallingEdge : Prop :=
  ∀ s : State,
    (¬ (driveLow s = false ∧ (input s).periphLow = false) →
      exec .armCRxArm s = .next { s with codec := { s.codec with cs := .cRxSettle, ph := 0 } }) ∧
    ((driveLow s = false ∧ (input s).periphLow = false) → exec .armCRxArm s = .next s)

/-- exec ARM_C_RXSETTLE: while ph < T_SETTLE - 1, ph advances, whatever the line; at ph = T_SETTLE - 1, isr becomes
2*isr mod 256 plus the line level, ph = 0, and rbit advances with cs = C_RXHIGH, or, after the eighth sample,
rbit = 0 and cs = C_RXPUSH; nothing else changes. (40_codec.md section 4 (R132, R133, decisions D8, D9, D10)) -/
def Obligations.CRxSettleSamplesOnce : Prop :=
  ∀ s : State,
    (s.codec.ph < s.cfg.tSettle - 1 →
      exec .armCRxSettle s = .next { s with codec := { s.codec with ph := s.codec.ph + 1 } }) ∧
    (s.codec.ph = s.cfg.tSettle - 1 → ∃ t, exec .armCRxSettle s = .next t ∧
      t.codec.isr.toNat = 2 * s.codec.isr.toNat % 256 + (lineIn s).toNat ∧ t.codec.ph = 0 ∧
      (s.codec.rbit.toNat < 7 → t.codec.rbit.toNat = s.codec.rbit.toNat + 1 ∧ t.codec.cs = .cRxHigh) ∧
      (s.codec.rbit.toNat = 7 → t.codec.rbit = 0#3 ∧ t.codec.cs = .cRxPush) ∧
      t = { s with codec := { s.codec with
        isr := t.codec.isr, ph := 0, rbit := t.codec.rbit, cs := t.codec.cs } })

/-- exec ARM_C_RXPUSH: with room in RXQ, isr is appended, and cs = C_IDLE if rxn = 0, else rxn decreases by 1 and cs
= C_RXHIGH; with RXQ full nothing changes; nothing else changes. (40_codec.md section 4 (R134, decision D26)) -/
def Obligations.CRxPushHandsByteOver : Prop :=
  ∀ s : State,
    (s.rxq.length < s.cfg.qdRx → s.codec.rxn = 0#5 → exec .armCRxPush s = .next { s with
      rxq := s.rxq ++ [s.codec.isr], codec := { s.codec with cs := .cIdle } }) ∧
    (s.rxq.length < s.cfg.qdRx → s.codec.rxn ≠ 0#5 → ∃ n : BitVec 5, n.toNat + 1 = s.codec.rxn.toNat ∧
      exec .armCRxPush s = .next { s with
        rxq := s.rxq ++ [s.codec.isr], codec := { s.codec with rxn := n, cs := .cRxHigh } }) ∧
    (s.cfg.qdRx ≤ s.rxq.length → exec .armCRxPush s = .next s)

/-- exec ARM_O_IDLE: when ss = S_START (xfer_start = 1) and the session layer's operands are in range, rq, rqlen and
rslen take s_req, s_rqlen and s_rslen, resp is all zero, idx = 0, tmr = 0, os = O_RESET, and nothing else
changes; when ss is not S_START nothing changes. (R162) -/
def Obligations.OIdleLatchesRequest : Prop :=
  ∀ s : State,
    (s.session.ss = .sStart → 1 ≤ s.session.sRqlen → s.session.sRqlen ≤ s.cfg.reqMax → 1 ≤ s.session.sRslen →
      s.session.sRslen ≤ 32 →
      exec .armOIdle s = .next { s with orch :=
        { os := .oReset, rq := s.session.sReq, rqlen := s.session.sRqlen, rslen := s.session.sRslen, idx := 0,
          tmr := 0, resp := Vector.replicate 32 0#8 } }) ∧
    (s.session.ss ≠ .sStart → exec .armOIdle s = .next s)

/-- exec ARM_O_RESET answers the next state with os = O_CTRL, the codec cleared to C_IDLE, both queues empty, and
nothing else changed; restart = 1 exactly in O_RESET. (41_orchestrator.md section 2 (R164, decision D12);
20_memory.md section 2 (R65); 10_state.md section 9 (R50)) -/
def Obligations.OResetRestartsAndFlushes : Prop :=
  ∀ s : State,
    exec .armOReset s = .next { s with
      codec := { cs := .cIdle, ph := 0, osr := 0#32, bitc := 0#3, rxn := 0#5, isr := 0#8, rbit := 0#3 }
      txq := []
      rxq := []
      orch := { s.orch with os := .oCtrl } } ∧
    (restart s = true ↔ s.orch.os = .oReset)

/-- exec ARM_O_CTRL: with room in TXQ and rslen in 1..32, the word with value (rslen - 1) * 2^27 is appended, idx =
0, os = O_REQ; with TXQ full nothing changes; nothing else changes. (41_orchestrator.md section 2 (R165);
30_encoding.md sections 3, 7 (R96, R106)) -/
def Obligations.OCtrlPushesControlWord : Prop :=
  ∀ s : State,
    (s.txq.length < s.cfg.qdTx → 1 ≤ s.orch.rslen → s.orch.rslen ≤ 32 → exec .armOCtrl s = .next { s with
      txq := s.txq ++ [BitVec.ofNat 32 ((s.orch.rslen - 1) * 2 ^ 27)], orch := { s.orch with idx := 0, os := .oReq } }) ∧
    (s.cfg.qdTx ≤ s.txq.length → exec .armOCtrl s = .next s)

/-- exec ARM_O_REQ, with rq[idx] = b: with room in TXQ, b * 2^24 is appended; if idx + 1 = rqlen then idx = 0, tmr =
0, os = O_COLLECT, else idx advances; with TXQ full nothing changes; nothing else changes. (R166) -/
def Obligations.OReqStreamsBytes : Prop :=
  ∀ (s : State) (b : Byte), s.orch.rq[s.orch.idx]? = some b →
    (s.txq.length < s.cfg.qdTx → s.orch.idx + 1 = s.orch.rqlen → exec .armOReq s = .next { s with
      txq := s.txq ++ [BitVec.ofNat 32 (b.toNat * 2 ^ 24)],
      orch := { s.orch with idx := 0, tmr := 0, os := .oCollect } }) ∧
    (s.txq.length < s.cfg.qdTx → s.orch.idx + 1 < s.orch.rqlen → exec .armOReq s = .next { s with
      txq := s.txq ++ [BitVec.ofNat 32 (b.toNat * 2 ^ 24)], orch := { s.orch with idx := s.orch.idx + 1 } }) ∧
    (s.cfg.qdTx ≤ s.txq.length → exec .armOReq s = .next s)

/-- exec ARM_O_COLLECT: at tmr = T_TIMEOUT (600 * N_US), tmr = 0 and os = O_SPACE and nothing else changes, RXQ and
resp among it, even with a byte in RXQ; at tmr < T_TIMEOUT with b at the head of RXQ, b is popped and stored at
resp[idx] and at no other place, tmr = 0, and os = O_SPACE if it was the last expected byte, else idx advances;
at tmr < T_TIMEOUT with RXQ empty, tmr advances. (R167; R168; R169) -/
def Obligations.OCollectTimeoutByteOrWait : Prop :=
  ∀ s : State,
    (s.orch.tmr = 600 * s.cfg.nUs →
      exec .armOCollect s = .next { s with orch := { s.orch with tmr := 0, os := .oSpace } }) ∧
    (s.orch.tmr < 600 * s.cfg.nUs → s.orch.idx ≤ 31 → ∀ b q, s.rxq = b :: q → ∃ r : Vector Byte 32,
      (∀ j : Fin 32, r[j] = if j.val = s.orch.idx then b else s.orch.resp[j]) ∧
      (s.orch.idx + 1 = s.orch.rslen → exec .armOCollect s = .next { s with
        rxq := q, orch := { s.orch with resp := r, tmr := 0, os := .oSpace } }) ∧
      (s.orch.idx + 1 < s.orch.rslen → exec .armOCollect s = .next { s with
        rxq := q, orch := { s.orch with resp := r, tmr := 0, idx := s.orch.idx + 1 } })) ∧
    (s.orch.tmr < 600 * s.cfg.nUs → s.rxq = [] →
      exec .armOCollect s = .next { s with orch := { s.orch with tmr := s.orch.tmr + 1 } })

/-- exec ARM_O_SPACE: at tmr + 1 = T_SPACE(rqlen, rslen), tmr = 0 and os = O_DONE; below it tmr advances; nothing
else changes. (41_orchestrator.md section 2 (R172, R173, decision D15)) -/
def Obligations.OSpaceCountsSpacing : Prop :=
  ∀ s : State,
    (s.orch.tmr + 1 = (4 * (s.orch.rqlen + s.orch.rslen) + 450) * s.cfg.nUs →
      exec .armOSpace s = .next { s with orch := { s.orch with tmr := 0, os := .oDone } }) ∧
    (s.orch.tmr + 1 < (4 * (s.orch.rqlen + s.orch.rslen) + 450) * s.cfg.nUs →
      exec .armOSpace s = .next { s with orch := { s.orch with tmr := s.orch.tmr + 1 } })

/-- exec ARM_O_DONE answers the next state with os = O_IDLE and nothing else changed, resp among it; xfer_done = 1
exactly in O_DONE and xfer_busy = 1 exactly outside O_IDLE. (41_orchestrator.md section 2 (R174, decision D1);
10_state.md section 9 (R51)) -/
def Obligations.ODoneReturnsToIdle : Prop :=
  ∀ s : State,
    exec .armODone s = .next { s with orch := { s.orch with os := .oIdle } } ∧
    (xferDone s = true ↔ s.orch.os = .oDone) ∧ (xferBusy s = true ↔ s.orch.os ≠ .oIdle)

/-- exec ARM_S_IDLE with ss = S_IDLE: with cmd_valid = 1 it answers what IDENTIFY, POLL, SET_RUMBLE cmd_arg or POLLR
cmd_arg answers, as cmd_op is 0, 1, 2 or 3, and that is a next state that differs in the session layer's
registers only; with cmd_valid = 0 nothing changes. (42_session.md sections 1, 2 (R191, R197, decision D17);
30_encoding.md section 6 (R105)) -/
def Obligations.SIdleAcceptsOrStays : Prop :=
  ∀ s : State, s.session.ss = .sIdle →
    ((input s).cmdValid = true →
      (∃ x, exec .armSIdle s = .next { s with session := x }) ∧
      ((input s).cmdOp = 0#2 → exec .armSIdle s = exec .identify s) ∧
      ((input s).cmdOp = 1#2 → exec .armSIdle s = exec .poll s) ∧
      ((input s).cmdOp = 2#2 → exec .armSIdle s = exec (.setRumble (input s).cmdArg) s) ∧
      ((input s).cmdOp = 3#2 → exec .armSIdle s = exec (.pollr (input s).cmdArg) s)) ∧
    ((input s).cmdValid = false → exec .armSIdle s = .next s)

/-- exec ARM_S_START answers the next state with ss = S_WAIT and nothing else changed; xfer_start = 1 exactly when
ss = S_START. (42_session.md section 3 (R192, decision D1); 10_state.md section 9 (R50)) -/
def Obligations.SStartRaisesXferStart : Prop :=
  ∀ s : State,
    exec .armSStart s = .next { s with session := { s.session with ss := .sWait } } ∧
    (xferStart s = true ↔ s.session.ss = .sStart)

/-- exec ARM_S_WAIT: with os = O_DONE and kind = K_ID, each of the three bytes of ID_RAW becomes the byte of resp at
its index and ss = S_IDLE; with kind = K_POLL the eight bytes of RAW likewise; with os not O_DONE nothing
changes; nothing else changes. (42_session.md section 3 (R198, R199, decisions D19, D20); 20_memory.md section 4
(R70)) -/
def Obligations.SWaitStoresResultWholesale : Prop :=
  ∀ s : State,
    (s.orch.os = .oDone → s.session.kind = .kId → ∃ r : Vector Byte 3,
      (∀ j : Fin 3, r[j] = s.orch.resp[j.val]) ∧
      exec .armSWait s = .next { s with session := { s.session with idRaw := r, ss := .sIdle } }) ∧
    (s.orch.os = .oDone → s.session.kind = .kPoll → ∃ r : Vector Byte 8,
      (∀ j : Fin 8, r[j] = s.orch.resp[j.val]) ∧
      exec .armSWait s = .next { s with session := { s.session with raw := r, ss := .sIdle } }) ∧
    (s.orch.os ≠ .oDone → exec .armSWait s = .next s)

/-- Let i, j, k be the operations the decoder reads from restart (when 1) or cs, from os and from ss. If exec of
each on s answers a next state, step s answers the state that has the codec registers of the first, the
orchestrator's of the second, the session layer's of the third, each queue as its consumer left it followed by
what its producer appended, the cycle's inputs consumed, the cycle number advanced and the cycle's outputs on
record. If the orchestrator's arm refuses, step refuses alike. (00_scope.md section 4 (R11, R12); 20_memory.md
sections 2, 5 (R64, R74, R75); 40_codec.md section 1 (R120)) -/
def Obligations.StepRunsDecodedArms : Prop :=
  ∀ (s : State) (i j k : Instr), (input s).rst = false →
    decode s.cfg (if restart s then .restartWire 1#1 else .codecState (csCode s.codec.cs)) = .ok i →
    decode s.cfg (.orchState (osCode s.orch.os)) = .ok j →
    decode s.cfg (.sessionState (ssCode s.session.ss)) = .ok k →
    (∀ a b c, exec i s = .next a → exec j s = .next b → exec k s = .next c →
      step s = .next
        { cfg := s.cfg, codec := a.codec, orch := b.orch, session := c.session
          txq := a.txq ++ b.txq.drop s.txq.length
          rxq := b.rxq ++ a.rxq.drop s.rxq.length
          inputs := s.inputs.tail, cycle := s.cycle + 1, seen := outputs s }) ∧
    (∀ r, exec j s = .refused r → step s = .refused r)

/-- If rst = 0, cmd_valid = 1 and ss = S_IDLE, and the decoder reads i from the word on the command port, then exec
i s and step s both answer a next state, with the same session registers. (42_session.md section 1 (R191);
30_encoding.md section 6 (R105)) -/
def Obligations.StepRunsPresentedCommand : Prop :=
  ∀ (s : State) (i : Instr), (input s).rst = false → (input s).cmdValid = true → s.session.ss = .sIdle →
    decode s.cfg (.hostCmd (hostCmdWord (input s).cmdOp (input s).cmdArg)) = .ok i →
    ∃ a t, exec i s = .next a ∧ step s = .next t ∧ t.session = a.session

/-- For a step with rst = 0 and restart = 0: if the cycle carries a line symbol i, drive_low of the cycle is what
exec i puts on record while sending, and the codec registers are those of exec i in the sampling cycle; with no
symbol drive_low is 0. In C_IDLE with a word at the head of TXQ the codec registers are those of the TXW-C it
decodes to; in C_TXWAIT, and in the last cycle of a byte, with a word whose low 24 bits are 0, those of the
TXW-D. (40_codec.md sections 1, 3, 4 (R122, R124, R125, R128, R133); 30_encoding.md sections 2, 3 (R91 to R97)) -/
def Obligations.StepRunsSymbolsAndWords : Prop :=
  ∀ s t : State, (input s).rst = false → restart s = false → step s = .next t →
    (∀ i a, lineSymbol s = some i → exec i s = .next a →
      (s.codec.cs ≠ .cRxSettle → t.seen.driveLow = a.seen.driveLow) ∧
      (s.codec.cs = .cRxSettle → t.codec = a.codec)) ∧
    (lineSymbol s = none → t.seen.driveLow = false) ∧
    (∀ w q i a, s.txq = w :: q → s.codec.cs = .cIdle → decode s.cfg (.txwFirst w) = .ok i → exec i s = .next a →
      t.codec = a.codec) ∧
    (∀ w q i a, s.txq = w :: q → w.extractLsb' 0 24 = 0#24 →
      (s.codec.cs = .cTxWait ∨
        (s.codec.cs = .cTxBit ∧ s.codec.ph = s.cfg.tSlot - 1 ∧ s.codec.bitc = 7#3)) →
      decode s.cfg (.txwLater w) = .ok i → exec i s = .next a → t.codec = a.codec)

/-- For a step with rst = 0 from a state in which ph is in its range (State.PhaseOk, in C_STOP by the model's
reading of log 16): under restart both queues are empty afterwards. Otherwise TXQ loses its oldest entry exactly
when the codec takes a word, and gains one at the young end exactly when O_CTRL or O_REQ runs with room at the
start of the cycle: in O_CTRL the 5 bits of rslen - 1 followed by 27 zeros, in O_REQ the byte rq[idx] followed
by 24 zeros; RXQ loses its oldest entry exactly when O_COLLECT runs before the timeout with a byte there, and
gains isr exactly when C_RXPUSH runs with room at the start of the cycle. (20_memory.md section 2 (R62 to R66,
decision D3); 10_state.md section 4 (R30, R31); 41_orchestrator.md section 2 (R165, R166)) -/
def Obligations.QueuesAtTheEdge : Prop :=
  ∀ s t : State, (input s).rst = false → s.PhaseOk → step s = .next t →
    (s.orch.os = .oReset → t.txq = [] ∧ t.rxq = []) ∧
    (s.orch.os ≠ .oReset → ∃ (w : List TxWord) (b : List Byte),
      t.txq = (if s.codec.cs = .cIdle ∨ s.codec.cs = .cTxWait ∨
          (s.codec.cs = .cTxBit ∧ s.codec.ph = s.cfg.tSlot - 1 ∧ s.codec.bitc = 7#3)
        then s.txq.tail else s.txq) ++ w ∧
      (s.orch.os = .oCtrl → s.txq.length < s.cfg.qdTx → w = [BitVec.ofNat 5 (s.orch.rslen - 1) ++ 0#27]) ∧
      (s.orch.os = .oReq → s.txq.length < s.cfg.qdTx → ∀ y : Byte, s.orch.rq[s.orch.idx]? = some y →
        w = [y ++ 0#24]) ∧
      w.length = (if (s.orch.os = .oCtrl ∨ s.orch.os = .oReq) ∧ s.txq.length < s.cfg.qdTx then 1 else 0) ∧
      t.rxq = (if s.orch.os = .oCollect ∧ s.orch.tmr ≠ 600 * s.cfg.nUs then s.rxq.tail else s.rxq) ++ b ∧
      b = (if s.codec.cs = .cRxPush ∧ s.rxq.length < s.cfg.qdRx then [s.codec.isr] else []))

/-- For every step that goes on, the outputs on record are: cmd_ready = 1 exactly when ss was S_IDLE; id_raw the
three bytes of ID_RAW, first byte uppermost; id_nonzero = 1 exactly when id_raw is not 0; rumble_q = RUMBLE; the
decoded outputs those of RAW; drive_low = 1 exactly in C_STOP and in C_TXBIT while ph < t_low(osr[31]).
(10_state.md sections 1, 9 (R21, R22, R50 to R54); 40_codec.md section 1 (R122); 42_session.md section 4 (R201)) -/
def Obligations.OutputsOfTheCycle : Prop :=
  ∀ s t : State, step s = .next t →
    (t.seen.cmdReady = true ↔ s.session.ss = .sIdle) ∧
    t.seen.idRaw.toNat =
      s.session.idRaw[0].toNat * 65536 + s.session.idRaw[1].toNat * 256 + s.session.idRaw[2].toNat ∧
    (t.seen.idNonzero = true ↔ t.seen.idRaw ≠ 0#24) ∧
    t.seen.rumbleQ = s.session.rumble ∧
    t.seen.pad = padOf s.session.raw ∧
    (t.seen.driveLow = true ↔ s.codec.cs = .cStop ∨
      (s.codec.cs = .cTxBit ∧
        s.codec.ph < (if s.codec.osr.getLsbD 31 then s.cfg.tShort else s.cfg.tLong)))

/-- For a step with rst = 0: RAW changes only when a poll completes (S_WAIT, O_DONE, K_POLL), ID_RAW only when an
identify completes (S_WAIT, O_DONE, K_ID), RUMBLE only when SET_RUMBLE or POLLR is accepted, and then to
cmd_arg. (20_memory.md section 4 (R70, decision D20); 10_state.md section 2 (R24, R25, R26); 42_session.md
sections 2, 3) -/
def Obligations.SessionDataChangesOnlyByRule : Prop :=
  ∀ s t : State, (input s).rst = false → step s = .next t →
    (¬ (s.session.ss = .sWait ∧ s.orch.os = .oDone ∧ s.session.kind = .kPoll) → t.session.raw = s.session.raw) ∧
    (¬ (s.session.ss = .sWait ∧ s.orch.os = .oDone ∧ s.session.kind = .kId) → t.session.idRaw = s.session.idRaw) ∧
    t.session.rumble =
      (if s.session.ss = .sIdle ∧ (input s).cmdValid = true ∧ ((input s).cmdOp = 2#2 ∨ (input s).cmdOp = 3#2)
       then (input s).cmdArg else s.session.rumble)

/-- If two states agree on the configuration, the codec registers, both queues, restart and the line level, then
after a step of each with rst = 0 the codec registers are equal, whatever the orchestrator and session
registers, the timers and the command port. (40_codec.md section 1 (R120)) -/
def Obligations.CodecIndependentOfTheRest : Prop :=
  ∀ s s' t t' : State, (input s).rst = false → (input s').rst = false →
    s.cfg = s'.cfg → s.codec = s'.codec → s.txq = s'.txq → s.rxq = s'.rxq → restart s = restart s' →
    lineIn s = lineIn s' → step s = .next t → step s' = .next t' → t.codec = t'.codec

/-- In C_IDLE, C_TXWAIT, C_TXBIT, C_STOP and C_RXPUSH, and in C_RXSETTLE before its last cycle, a step has the same
outcome whether the peripheral pulls the line low in the cycle or not. (40_codec.md section 5 (R137, decision
D32); 40_codec.md section 4 (R132, R135)) -/
def Obligations.LineUnreadOutsideReceiving : Prop :=
  ∀ (s : State) (i : Inputs) (l : List Inputs) (p : Bool), s.inputs = i :: l →
    (s.codec.cs = .cIdle ∨ s.codec.cs = .cTxWait ∨ s.codec.cs = .cTxBit ∨ s.codec.cs = .cStop ∨
      s.codec.cs = .cRxPush ∨ (s.codec.cs = .cRxSettle ∧ s.codec.ph < s.cfg.tSettle - 1)) →
    step { s with inputs := { i with periphLow := p } :: l } = step s

/-- When ss is not S_IDLE, a step has the same outcome for every cmd_valid, cmd_op and cmd_arg; when cmd_valid = 0,
for every cmd_op and cmd_arg. (42_session.md section 1 (R191, decisions D17, D27); 20_memory.md section 4 (R71)) -/
def Obligations.PortUnreadWhenBusy : Prop :=
  ∀ (s : State) (i : Inputs) (l : List Inputs) (v : Bool) (op : BitVec 2) (a : Bool), s.inputs = i :: l →
    (s.session.ss ≠ .sIdle →
      step { s with inputs := { i with cmdValid := v, cmdOp := op, cmdArg := a } :: l } = step s) ∧
    (i.cmdValid = false →
      step { s with inputs := { i with cmdOp := op, cmdArg := a } :: l } = step s)

/-- Replacing the field seen (the model's own, log 4) by any value changes no step: reading a status output has no
effect on any state. (20_memory.md section 4 (R71, derived by the spec); 00_scope.md section 5 (R15)) -/
def Obligations.RecordOfOutputsIsNeverRead : Prop :=
  ∀ (s : State) (o : Outputs), step { s with seen := o } = step s

/-- From a state in O_SPACE with tmr = 0 and the session layer in S_WAIT, and no reset meanwhile, every one of the
next T_SPACE(rqlen, rslen) cycles is spent in O_SPACE with tmr counting from 0 and cmd_ready = 0, and the next
is O_DONE. (41_orchestrator.md section 2 (R172, R173); 70_reset_and_hazards.md section 3 (R277, R280)) -/
def Obligations.SpacingLastsExactly : Prop :=
  ∀ s : State, s.orch.os = .oSpace → s.orch.tmr = 0 → s.session.ss = .sWait →
    (∀ k < (4 * (s.orch.rqlen + s.orch.rslen) + 450) * s.cfg.nUs, (inputAt s k).rst = false) →
    (∀ k < (4 * (s.orch.rqlen + s.orch.rslen) + 450) * s.cfg.nUs,
      ∃ t, cycles k s = .next t ∧ t.orch.os = .oSpace ∧ t.orch.tmr = k ∧ cmdReady t = false) ∧
    ∃ t, cycles ((4 * (s.orch.rqlen + s.orch.rslen) + 450) * s.cfg.nUs) s = .next t ∧ t.orch.os = .oDone ∧
      t.orch.resp = s.orch.resp ∧ cmdReady t = false

/-- From a state that meets the invariant at the start of O_COLLECT (idx = 0, tmr = 0), with no reset meanwhile,
O_SPACE is reached after at least 1 and at most rslen * 600 * N_US + 1 cycles, for every behaviour of the
peripheral and the host. (41_orchestrator.md sections 2, 3 (R170, R176, derived by the spec); 60_exceptions.md
section 1 (R241); 90_conflicts.md C4, C8) -/
def Obligations.CollectionEndsInTime : Prop :=
  ∀ s : State, s.Inv → s.orch.os = .oCollect → s.orch.idx = 0 → s.orch.tmr = 0 →
    (∀ k < s.orch.rslen * (600 * s.cfg.nUs) + 1, (inputAt s k).rst = false) →
    ∃ k t, 1 ≤ k ∧ k ≤ s.orch.rslen * (600 * s.cfg.nUs) + 1 ∧ cycles k s = .next t ∧
      t.orch.os = .oSpace ∧ t.orch.tmr = 0

/-- From the first cycle of a slot (C_TXBIT, ph = 0) in a state that meets the invariant, with no reset and no
restart for T_SLOT cycles: in cycle k of the slot the line level the codec leaves is entry k of the slot shape
of bit osr[31]; and after T_SLOT cycles, if it was not the eighth slot, the codec is at the first cycle of the
next with osr shifted left and bitc advanced. (30_encoding.md section 2 (R91, R92); 40_codec.md sections 3, 6
(R126, R127, R138)) -/
def Obligations.SlotOnTheWire : Prop :=
  ∀ s : State, s.Inv → s.codec.cs = .cTxBit → s.codec.ph = 0 →
    (∀ k < s.cfg.tSlot, (inputAt s k).rst = false) → (∀ k < s.cfg.tSlot, ∀ u, cycles k s = .next u → restart u = false) →
    (∀ k < s.cfg.tSlot, ∃ t, cycles k s = .next t ∧ t.codec.cs = .cTxBit ∧ t.codec.ph = k ∧
      (slotLevels s.cfg (s.codec.osr.getLsbD 31))[k]? = some (!driveLow t)) ∧
    (s.codec.bitc.toNat < 7 → ∃ t, cycles s.cfg.tSlot s = .next t ∧ t.codec.cs = .cTxBit ∧ t.codec.ph = 0 ∧
      t.codec.osr = s.codec.osr <<< 1 ∧ t.codec.bitc = s.codec.bitc + 1#3)

/-- From an armed codec (C_RXARM) in a state that meets the invariant, with no reset and no restart for T_SLOT
cycles in which the peripheral sends the slot shape of bit b. With fewer than seven samples of the byte taken:
after the slot the codec is armed again, b has been shifted into isr from below, rbit has advanced and rxn is
unchanged. With seven samples taken and room in RXQ: T_SETTLE + 2 cycles after the falling edge the byte, b its
last bit, stands at the young end of RXQ, behind what was there less at most one byte the orchestrator took;
after the slot, if rxn was not 0, it is counted down by 1, rbit = 0 and the codec is armed again; if rxn was 0
the codec is in C_IDLE right after the push, and after the slot too when TXQ was empty and the orchestrator in
neither O_CTRL nor O_REQ. Under every legal configuration. (40_codec.md sections 4, 6 (R130 to R135, R139,
R140); 30_encoding.md section 2 (R94); 70_reset_and_hazards.md section 3 (R283)) -/
def Obligations.SlotReceived : Prop :=
  ∀ (s : State) (b : Bool), s.Inv → s.codec.cs = .cRxArm →
    (∀ k < s.cfg.tSlot, (inputAt s k).rst = false) → (∀ k < s.cfg.tSlot, ∀ u, cycles k s = .next u → restart u = false) →
    (∀ k < s.cfg.tSlot, (slotLevels s.cfg b)[k]? = some (!(inputAt s k).periphLow)) →
    (s.codec.rbit.toNat < 7 → ∃ t, cycles s.cfg.tSlot s = .next t ∧ t.codec.cs = .cRxArm ∧
      t.codec.isr = s.codec.isr.extractLsb' 0 7 ++ BitVec.ofBool b ∧ t.codec.rbit = s.codec.rbit + 1#3 ∧
      t.codec.rxn = s.codec.rxn) ∧
    (s.codec.rbit = 7#3 → s.rxq.length < s.cfg.qdRx →
      ∃ v u t, cycles (s.cfg.tSettle + 1) s = .next v ∧ cycles (s.cfg.tSettle + 2) s = .next u ∧
        cycles s.cfg.tSlot s = .next t ∧ v.codec.cs = .cRxPush ∧
        (u.rxq = v.rxq ++ [s.codec.isr.extractLsb' 0 7 ++ BitVec.ofBool b] ∨
          u.rxq = v.rxq.tail ++ [s.codec.isr.extractLsb' 0 7 ++ BitVec.ofBool b]) ∧
        (s.codec.rxn ≠ 0#5 → t.codec.cs = .cRxArm ∧ t.codec.rbit = 0#3 ∧
          t.codec.rxn.toNat + 1 = s.codec.rxn.toNat) ∧
        (s.codec.rxn = 0#5 → u.codec.cs = .cIdle ∧
          (s.txq = [] → s.orch.os ≠ .oCtrl → s.orch.os ≠ .oReq → t.codec.cs = .cIdle)))

/-- Under the inequality of R281, from the cycle of O_CTRL in a state that meets State.Inv and State.CtrlInStep,
with no reset meanwhile: drive_low is 0 until the first slot, which begins after 3 cycles (4 if QD_TX = 1); from
there on the line level the codec leaves is, cycle by cycle, requestLevels of the bytes rq[0..rqlen-1] (whose
every entry SymbolShapes states), for every behaviour of the peripheral and the host; then the line is released
and the codec is in C_RXHIGH. (40_codec.md section 6 (R138, derived by the spec); 40_codec.md section 3 (R124 to
R129); 41_orchestrator.md sections 2, 3 (R165, R166, R171); 30_encoding.md section 4 (R110)) -/
def Obligations.RequestOnTheWire : Prop :=
  ∀ (s : State) (d : Nat), s.RestartSafe → s.Inv → s.CtrlInStep → s.orch.os = .oCtrl →
    d = (if s.cfg.qdTx = 1 then 4 else 3) →
    (∀ k < d + (8 * s.orch.rqlen * s.cfg.tSlot + s.cfg.tStopLow), (inputAt s k).rst = false) →
    (∀ k < d, ∃ t, cycles k s = .next t ∧ driveLow t = false) ∧
    (∀ k < 8 * s.orch.rqlen * s.cfg.tSlot + s.cfg.tStopLow, ∃ t, cycles (d + k) s = .next t ∧
      (requestLevels s.cfg (s.orch.rq.take s.orch.rqlen))[k]? = some (!driveLow t)) ∧
    ∃ t, cycles (d + (8 * s.orch.rqlen * s.cfg.tSlot + s.cfg.tStopLow)) s = .next t ∧ t.codec.cs = .cRxHigh ∧
      driveLow t = false

/-- Under every legal configuration: both bit shapes have exactly T_SLOT entries; entry T_SETTLE of the shape of b
is b; the two shapes differ. The levels of a request of n bytes number 8 * n * T_SLOT + T_STOP_LOW; in cycle m
of slot j of byte i (slot (8i + j) of the request) the level is low while m < T_SHORT if bit 7 - j of byte i is
1 and while m < T_LONG if it is 0, and high in the rest of the slot; in the T_STOP_LOW cycles after the slots it
is low. (30_encoding.md sections 2, 4 (R91 to R94, R110, derived by the spec); 40_codec.md section 6 (R138);
20_memory.md section 3 (R68, decision D9)) -/
def Obligations.SymbolShapes : Prop :=
  ∀ c : Config,
    (∀ b : Bool, (slotLevels c b).length = c.tSlot ∧ (slotLevels c b)[c.tSettle]? = some b) ∧
    slotLevels c false ≠ slotLevels c true ∧
    ∀ request : List Byte, (requestLevels c request).length = 8 * request.length * c.tSlot + c.tStopLow ∧
      (∀ (i j m : Nat) (y : Byte), request[i]? = some y → j < 8 → m < c.tSlot →
        (requestLevels c request)[(8 * i + j) * c.tSlot + m]? =
          some (decide ((if y.getLsbD (7 - j) then c.tShort else c.tLong) ≤ m))) ∧
      (∀ m < c.tStopLow, (requestLevels c request)[8 * request.length * c.tSlot + m]? = some false)

/-- A sanity statement: command words 000, 011, 101, 110; the control words of lengths 3 and 32 with any bits 26..0;
the data word of 0x41 with any bits 23..0; the identify frame and the poll frame with flag 1; cs = 6, os = 4, ss
= 2; and os = 7 and ss = 3 are refused by name; under every configuration. (30_encoding.md sections 3, 4, 6;
10_state.md sections 6, 7, 8; 93_implementation_defined.md U14) -/
def Obligations.WrittenOutWordsDecode : Prop :=
  ∀ c : Config,
    decode c (.hostCmd 0b000#3) = .ok .identify ∧ decode c (.hostCmd 0b011#3) = .ok .poll ∧
    decode c (.hostCmd 0b101#3) = .ok (.setRumble true) ∧ decode c (.hostCmd 0b110#3) = .ok (.pollr false) ∧
    (∀ x : BitVec 27, decode c (.txwFirst (0b00010#5 ++ x)) = .ok (.txwC 2#5) ∧
      decode c (.txwFirst (0b11111#5 ++ x)) = .ok (.txwC 31#5)) ∧
    (∀ x : BitVec 24, decode c (.txwLater (0x41#8 ++ x)) = .ok (.txwD 0x41#8)) ∧
    decode c (.wireFrame [0x41#8]) = .ok .identifyReq ∧
    decode c (.wireFrame [0x40#8, 0x03#8, 0x01#8]) = .ok (.pollReq true) ∧
    decode c (.codecState 0b110#3) = .ok .armCRxSettle ∧ decode c (.orchState 0b100#3) = .ok .armOCollect ∧
    decode c (.sessionState 0b10#2) = .ok .armSWait ∧
    decode c (.orchState 0b111#3) = .error .noOrchState ∧ decode c (.sessionState 0b11#2) = .error .noSessionState
end

