-- ==== Sys2Proof/Laws/Config.lean ====
section
/-! SUPPORT. What the constraints of a configuration say about the capacity of the request buffer
(`70_reset_and_hazards.md` R281). -/

namespace Sys2Proof.Laws

/-- A response that fits leaves room for the request: the second inequality of R281 contains the first. -/
theorem restartFits_of_responseFits {p : Params} {n t : Nat} (h : p.ResponseFits n t) : p.RestartFits n := by
  simp only [Params.ResponseFits, Params.RestartFits] at *
  omega

/-- With the microsecond values of `00_scope.md` R9, `REQ_MAX <= 17` (R281). -/
theorem reqMax_le_of_standard (c : Config) {nUs qdTx qdRx reqMax : Nat}
    (h : c.toParams = Params.standard nUs qdTx qdRx reqMax) : reqMax ≤ 17 := by
  have hl := h ▸ c.legal
  by_contra hc
  have hr := (hl.2.2.2.2.2.2.2.2.2.2.2 (by simp only; omega)).2
  simp only [Params.ResponseFits, Params.sendBound] at hr
  nlinarith [Nat.mul_le_mul_right nUs (show 18 ≤ reqMax by omega)]

/-- With these values `REQ_MAX = 3` leaves up to 471 microseconds for the turnaround, less the two cycles of the
push (R281). -/
theorem turnaround_of_standard (nUs qdTx qdRx t : Nat) :
    (Params.standard nUs qdTx qdRx 3).ResponseFits 3 t ↔ t + 2 < 471 * nUs := by
  simp only [Params.ResponseFits, Params.sendBound]
  omega

end Sys2Proof.Laws
end

