-- ==== Sys2Proof/Laws/State.lean ====
section
/-! SUPPORT. One lemma per field per update of State: the updates of `Machine/Ops.lean`, and the two state builders of
`Machine/Clock.lean`. -/

namespace Sys2Proof.Laws

open Sys2Proof.Machine

@[simp] theorem setCodec_cfg (s : State) (c : Codec) : (s.setCodec c).cfg = s.cfg := rfl
@[simp] theorem setCodec_codec (s : State) (c : Codec) : (s.setCodec c).codec = c := rfl
@[simp] theorem setCodec_txq (s : State) (c : Codec) : (s.setCodec c).txq = s.txq := rfl
@[simp] theorem setCodec_rxq (s : State) (c : Codec) : (s.setCodec c).rxq = s.rxq := rfl
@[simp] theorem setCodec_orch (s : State) (c : Codec) : (s.setCodec c).orch = s.orch := rfl
@[simp] theorem setCodec_session (s : State) (c : Codec) : (s.setCodec c).session = s.session := rfl
@[simp] theorem setCodec_inputs (s : State) (c : Codec) : (s.setCodec c).inputs = s.inputs := rfl
@[simp] theorem setCodec_cycle (s : State) (c : Codec) : (s.setCodec c).cycle = s.cycle := rfl
@[simp] theorem setCodec_seen (s : State) (c : Codec) : (s.setCodec c).seen = s.seen := rfl

@[simp] theorem setOrch_cfg (s : State) (o : Orch) : (s.setOrch o).cfg = s.cfg := rfl
@[simp] theorem setOrch_codec (s : State) (o : Orch) : (s.setOrch o).codec = s.codec := rfl
@[simp] theorem setOrch_txq (s : State) (o : Orch) : (s.setOrch o).txq = s.txq := rfl
@[simp] theorem setOrch_rxq (s : State) (o : Orch) : (s.setOrch o).rxq = s.rxq := rfl
@[simp] theorem setOrch_orch (s : State) (o : Orch) : (s.setOrch o).orch = o := rfl
@[simp] theorem setOrch_session (s : State) (o : Orch) : (s.setOrch o).session = s.session := rfl
@[simp] theorem setOrch_inputs (s : State) (o : Orch) : (s.setOrch o).inputs = s.inputs := rfl
@[simp] theorem setOrch_cycle (s : State) (o : Orch) : (s.setOrch o).cycle = s.cycle := rfl
@[simp] theorem setOrch_seen (s : State) (o : Orch) : (s.setOrch o).seen = s.seen := rfl

@[simp] theorem setSession_cfg (s : State) (x : Session) : (s.setSession x).cfg = s.cfg := rfl
@[simp] theorem setSession_codec (s : State) (x : Session) : (s.setSession x).codec = s.codec := rfl
@[simp] theorem setSession_txq (s : State) (x : Session) : (s.setSession x).txq = s.txq := rfl
@[simp] theorem setSession_rxq (s : State) (x : Session) : (s.setSession x).rxq = s.rxq := rfl
@[simp] theorem setSession_orch (s : State) (x : Session) : (s.setSession x).orch = s.orch := rfl
@[simp] theorem setSession_session (s : State) (x : Session) : (s.setSession x).session = x := rfl
@[simp] theorem setSession_inputs (s : State) (x : Session) : (s.setSession x).inputs = s.inputs := rfl
@[simp] theorem setSession_cycle (s : State) (x : Session) : (s.setSession x).cycle = s.cycle := rfl
@[simp] theorem setSession_seen (s : State) (x : Session) : (s.setSession x).seen = s.seen := rfl

@[simp] theorem setTxq_cfg (s : State) (q : List TxWord) : (s.setTxq q).cfg = s.cfg := rfl
@[simp] theorem setTxq_codec (s : State) (q : List TxWord) : (s.setTxq q).codec = s.codec := rfl
@[simp] theorem setTxq_txq (s : State) (q : List TxWord) : (s.setTxq q).txq = q := rfl
@[simp] theorem setTxq_rxq (s : State) (q : List TxWord) : (s.setTxq q).rxq = s.rxq := rfl
@[simp] theorem setTxq_orch (s : State) (q : List TxWord) : (s.setTxq q).orch = s.orch := rfl
@[simp] theorem setTxq_session (s : State) (q : List TxWord) : (s.setTxq q).session = s.session := rfl
@[simp] theorem setTxq_inputs (s : State) (q : List TxWord) : (s.setTxq q).inputs = s.inputs := rfl
@[simp] theorem setTxq_cycle (s : State) (q : List TxWord) : (s.setTxq q).cycle = s.cycle := rfl
@[simp] theorem setTxq_seen (s : State) (q : List TxWord) : (s.setTxq q).seen = s.seen := rfl

@[simp] theorem setRxq_cfg (s : State) (q : List Byte) : (s.setRxq q).cfg = s.cfg := rfl
@[simp] theorem setRxq_codec (s : State) (q : List Byte) : (s.setRxq q).codec = s.codec := rfl
@[simp] theorem setRxq_txq (s : State) (q : List Byte) : (s.setRxq q).txq = s.txq := rfl
@[simp] theorem setRxq_rxq (s : State) (q : List Byte) : (s.setRxq q).rxq = q := rfl
@[simp] theorem setRxq_orch (s : State) (q : List Byte) : (s.setRxq q).orch = s.orch := rfl
@[simp] theorem setRxq_session (s : State) (q : List Byte) : (s.setRxq q).session = s.session := rfl
@[simp] theorem setRxq_inputs (s : State) (q : List Byte) : (s.setRxq q).inputs = s.inputs := rfl
@[simp] theorem setRxq_cycle (s : State) (q : List Byte) : (s.setRxq q).cycle = s.cycle := rfl
@[simp] theorem setRxq_seen (s : State) (q : List Byte) : (s.setRxq q).seen = s.seen := rfl

@[simp] theorem setSeen_cfg (s : State) (o : Outputs) : (s.setSeen o).cfg = s.cfg := rfl
@[simp] theorem setSeen_codec (s : State) (o : Outputs) : (s.setSeen o).codec = s.codec := rfl
@[simp] theorem setSeen_txq (s : State) (o : Outputs) : (s.setSeen o).txq = s.txq := rfl
@[simp] theorem setSeen_rxq (s : State) (o : Outputs) : (s.setSeen o).rxq = s.rxq := rfl
@[simp] theorem setSeen_orch (s : State) (o : Outputs) : (s.setSeen o).orch = s.orch := rfl
@[simp] theorem setSeen_session (s : State) (o : Outputs) : (s.setSeen o).session = s.session := rfl
@[simp] theorem setSeen_inputs (s : State) (o : Outputs) : (s.setSeen o).inputs = s.inputs := rfl
@[simp] theorem setSeen_cycle (s : State) (o : Outputs) : (s.setSeen o).cycle = s.cycle := rfl
@[simp] theorem setSeen_seen (s : State) (o : Outputs) : (s.setSeen o).seen = o := rfl

@[simp] theorem setInputs_cfg (s : State) (l : List Inputs) : (s.setInputs l).cfg = s.cfg := rfl
@[simp] theorem setInputs_codec (s : State) (l : List Inputs) : (s.setInputs l).codec = s.codec := rfl
@[simp] theorem setInputs_txq (s : State) (l : List Inputs) : (s.setInputs l).txq = s.txq := rfl
@[simp] theorem setInputs_rxq (s : State) (l : List Inputs) : (s.setInputs l).rxq = s.rxq := rfl
@[simp] theorem setInputs_orch (s : State) (l : List Inputs) : (s.setInputs l).orch = s.orch := rfl
@[simp] theorem setInputs_session (s : State) (l : List Inputs) : (s.setInputs l).session = s.session := rfl
@[simp] theorem setInputs_inputs (s : State) (l : List Inputs) : (s.setInputs l).inputs = l := rfl
@[simp] theorem setInputs_cycle (s : State) (l : List Inputs) : (s.setInputs l).cycle = s.cycle := rfl
@[simp] theorem setInputs_seen (s : State) (l : List Inputs) : (s.setInputs l).seen = s.seen := rfl

@[simp] theorem tick_cfg (s t : State) : (tick s t).cfg = t.cfg := rfl
@[simp] theorem tick_codec (s t : State) : (tick s t).codec = t.codec := rfl
@[simp] theorem tick_txq (s t : State) : (tick s t).txq = t.txq := rfl
@[simp] theorem tick_rxq (s t : State) : (tick s t).rxq = t.rxq := rfl
@[simp] theorem tick_orch (s t : State) : (tick s t).orch = t.orch := rfl
@[simp] theorem tick_session (s t : State) : (tick s t).session = t.session := rfl
@[simp] theorem tick_inputs (s t : State) : (tick s t).inputs = s.inputs.tail := rfl
@[simp] theorem tick_cycle (s t : State) : (tick s t).cycle = s.cycle + 1 := rfl
@[simp] theorem tick_seen (s t : State) : (tick s t).seen = outputs s := rfl

@[simp] theorem mergeArms_cfg (s a b c : State) : (mergeArms s a b c).cfg = s.cfg := rfl
@[simp] theorem mergeArms_codec (s a b c : State) : (mergeArms s a b c).codec = a.codec := rfl
@[simp] theorem mergeArms_txq (s a b c : State) : (mergeArms s a b c).txq = mergeQueue s.txq a.txq b.txq := rfl
@[simp] theorem mergeArms_rxq (s a b c : State) : (mergeArms s a b c).rxq = mergeQueue s.rxq b.rxq a.rxq := rfl
@[simp] theorem mergeArms_orch (s a b c : State) : (mergeArms s a b c).orch = b.orch := rfl
@[simp] theorem mergeArms_session (s a b c : State) : (mergeArms s a b c).session = c.session := rfl
@[simp] theorem mergeArms_inputs (s a b c : State) : (mergeArms s a b c).inputs = s.inputs := rfl
@[simp] theorem mergeArms_cycle (s a b c : State) : (mergeArms s a b c).cycle = s.cycle := rfl
@[simp] theorem mergeArms_seen (s a b c : State) : (mergeArms s a b c).seen = s.seen := rfl

/-- The inputs of the cycles after an edge are those that followed the cycle's own. -/
theorem inputAt_tick (s t : State) (k : Nat) : inputAt (tick s t) k = inputAt s (k + 1) := by
  simp only [inputAt, tick_inputs, tick_cycle, List.getElem?_tail]
  rw [Nat.add_assoc, Nat.add_comm 1 k]

end Sys2Proof.Laws
end

