-- ==== Sys2Proof/Laws/Ops.lean ====
section
/-! SUPPORT. One lemma per shared operation that says what it does, and the inversion of the operations that can answer
in several ways. -/

namespace Sys2Proof.Laws

open Sys2Proof.Machine

/-! ### TXQ words (`30_encoding.md` R96, R97): the field is read whatever stands below it -/

theorem lenm1Of_append (l : BitVec 5) (x : BitVec 27) : lenm1Of (l ++ x) = l :=
  (BitVec.extractLsb'_append_eq_of_le (by decide)).trans (by simp)
theorem byteOf_append (b : BitVec 8) (x : BitVec 24) : byteOf (b ++ x) = b :=
  (BitVec.extractLsb'_append_eq_of_le (by decide)).trans (by simp)
@[simp] theorem lenm1Of_controlWord (l : BitVec 5) : lenm1Of (controlWord l) = l := lenm1Of_append l 0#27
@[simp] theorem byteOf_dataWord (b : Byte) : byteOf (dataWord b) = b := byteOf_append b 0#24

/-! ### Queues (`20_memory.md` R62 to R65) -/

@[simp] theorem popTx_eq (s : State) : popTx s = s.setTxq s.txq.tail := rfl
@[simp] theorem pushTx_eq (w : TxWord) (s : State) : pushTx w s = s.setTxq (s.txq ++ [w]) := rfl
@[simp] theorem popRx_eq (s : State) : popRx s = s.setRxq s.rxq.tail := rfl
@[simp] theorem pushRx_eq (b : Byte) (s : State) : pushRx b s = s.setRxq (s.rxq ++ [b]) := rfl
@[simp] theorem flush_txq (s : State) : (flush s).txq = [] := rfl
@[simp] theorem flush_rxq (s : State) : (flush s).rxq = [] := rfl
@[simp] theorem txNotFull_iff (s : State) : txNotFull s = true ↔ s.txq.length < s.cfg.qdTx := by simp [txNotFull]
@[simp] theorem rxNotFull_iff (s : State) : rxNotFull s = true ↔ s.rxq.length < s.cfg.qdRx := by simp [rxNotFull]

/-- Neither end touched: the contents stay. -/
@[simp] theorem mergeQueue_same {α : Type} (q : List α) : mergeQueue q q q = q := by simp [mergeQueue]
/-- A pop alone. -/
@[simp] theorem mergeQueue_pop {α : Type} (q : List α) : mergeQueue q q.tail q = q.tail := by simp [mergeQueue]
/-- A push alone. -/
@[simp] theorem mergeQueue_push {α : Type} (q : List α) (e : α) : mergeQueue q q (q ++ [e]) = q ++ [e] := by
  simp [mergeQueue]
/-- A pop and a push in one edge are both performed (R64). -/
@[simp] theorem mergeQueue_pop_push {α : Type} (q : List α) (e : α) :
    mergeQueue q q.tail (q ++ [e]) = q.tail ++ [e] := by simp [mergeQueue]
/-- A flush leaves nothing (R65). -/
@[simp] theorem mergeQueue_flush {α : Type} (q : List α) : mergeQueue q [] [] = [] := by simp [mergeQueue]

/-! ### Derived signals (`10_state.md` R50 to R53) -/

@[simp] theorem restart_iff (s : State) : restart s = true ↔ s.orch.os = .oReset := by simp [restart]
@[simp] theorem xferStart_iff (s : State) : xferStart s = true ↔ s.session.ss = .sStart := by simp [xferStart]
@[simp] theorem xferDone_iff (s : State) : xferDone s = true ↔ s.orch.os = .oDone := by simp [xferDone]
@[simp] theorem cmdReady_iff (s : State) : cmdReady s = true ↔ s.session.ss = .sIdle := by simp [cmdReady]

/-! ### Codec -/

/-- What taking a sample can do: one more bit, or the eighth (`40_codec.md` R133). -/
theorem takeSample_cases (b : Bool) (s : State) :
    (s.codec.rbit = 7#3 ∧
      takeSample b s =
        s.setCodec { s.codec with isr := shiftIn s.codec.isr b, ph := 0, rbit := 0#3, cs := .cRxPush }) ∨
    (s.codec.rbit ≠ 7#3 ∧
      takeSample b s =
        s.setCodec
          { s.codec with isr := shiftIn s.codec.isr b, ph := 0, rbit := s.codec.rbit + 1#3, cs := .cRxHigh }) := by
  by_cases h : s.codec.rbit = 7#3
  · exact .inl ⟨h, by simp [takeSample, h]⟩
  · exact .inr ⟨h, by simp [takeSample, h]⟩

/-- What the last cycle of a byte can do: the next word, or STOP (`40_codec.md` R128). -/
theorem byteBoundary_cases (s : State) :
    (s.txq = [] ∧ byteBoundary s = s.setCodec { s.codec with cs := .cStop, ph := 0, bitc := 0#3 }) ∨
    (∃ w q, s.txq = w :: q ∧ byteBoundary s = takeData w s) := by
  unfold byteBoundary
  split
  · exact .inl ⟨‹_›, rfl⟩
  · exact .inr ⟨_, _, ‹_›, rfl⟩

@[simp] theorem takeControl_codec (l : BitVec 5) (s : State) :
    (takeControl l s).codec = { s.codec with rxn := l, cs := .cTxWait } := rfl
@[simp] theorem takeControl_txq (l : BitVec 5) (s : State) : (takeControl l s).txq = s.txq.tail := rfl
@[simp] theorem takeControl_rxq (l : BitVec 5) (s : State) : (takeControl l s).rxq = s.rxq := rfl
@[simp] theorem takeData_codec (w : TxWord) (s : State) :
    (takeData w s).codec = { s.codec with osr := w, bitc := 0#3, ph := 0, cs := .cTxBit } := rfl
@[simp] theorem takeData_txq (w : TxWord) (s : State) : (takeData w s).txq = s.txq.tail := rfl
@[simp] theorem takeData_rxq (w : TxWord) (s : State) : (takeData w s).rxq = s.rxq := rfl
@[simp] theorem restartCodec_codec (s : State) : (restartCodec s).codec = .reset := rfl
@[simp] theorem restartCodec_txq (s : State) : (restartCodec s).txq = [] := rfl
@[simp] theorem restartCodec_rxq (s : State) : (restartCodec s).rxq = [] := rfl

/-! ### Orchestrator -/

/-- The operand check, as a proposition (`30_encoding.md` R107 (c)). -/
@[simp] theorem operandsLegal_iff (c : Config) (q r : Nat) :
    operandsLegal c q r = true ↔ 1 ≤ q ∧ q ≤ c.reqMax ∧ 1 ≤ r ∧ r ≤ 32 := by
  simp [operandsLegal, and_assoc]

/-- What the start of a transfer can answer: the latched operands, or the refusal of operands out of range. -/
theorem startTransfer_cases (rq : List Byte) (q r : Nat) (s : State) :
    (operandsLegal s.cfg q r = true ∧
      startTransfer rq q r s =
        .next (s.setOrch
          { os := .oReset, rq := rq, rqlen := q, rslen := r, idx := 0, tmr := 0, resp := Vector.replicate 32 0#8 })) ∨
    (operandsLegal s.cfg q r = false ∧ startTransfer rq q r s = .refused .transferOperands) := by
  unfold startTransfer
  cases h : operandsLegal s.cfg q r
  · exact .inr ⟨rfl, by simp⟩
  · exact .inl ⟨rfl, by simp⟩

/-- What collecting a byte can do: the last byte of the response, or one more to come (`41_orchestrator.md` R168). -/
theorem collectByte_cases (b : Byte) (s : State) :
    (s.orch.idx = s.orch.rslen - 1 ∧
      collectByte b s = (s.setRxq s.rxq.tail).setOrch
        { s.orch with resp := s.orch.resp.setIfInBounds s.orch.idx b, tmr := 0, os := .oSpace }) ∨
    (s.orch.idx ≠ s.orch.rslen - 1 ∧
      collectByte b s = (s.setRxq s.rxq.tail).setOrch
        { s.orch with resp := s.orch.resp.setIfInBounds s.orch.idx b, tmr := 0, idx := s.orch.idx + 1 }) := by
  by_cases h : s.orch.idx = s.orch.rslen - 1
  · exact .inl ⟨h, by simp [collectByte, h]⟩
  · exact .inr ⟨h, by simp [collectByte, h]⟩

/-! ### Session layer -/

/-- A command when the session layer is ready. -/
theorem whenReady_of_ready (f : State → State) (s : State) (h : s.session.ss = .sIdle) : whenReady f s = f s := by
  simp [whenReady, cmdReady, h]

/-- A command when it is not: nothing (`42_session.md` R191). -/
theorem whenReady_of_busy (f : State → State) (s : State) (h : s.session.ss ≠ .sIdle) : whenReady f s = s := by
  simp [whenReady, cmdReady, h]

/-- A padded request fills the buffer (`10_state.md` R49). -/
theorem padRequest_length (c : Config) (r : List Byte) (h : r.length ≤ c.reqMax) :
    (padRequest c r).length = c.reqMax := by
  simp [padRequest]; omega

/-- A command changes the session layer only (`20_memory.md` R75). -/
theorem acceptCommand_frame (op : BitVec 2) (arg : Bool) (s : State) :
    acceptCommand op arg s = s.setSession (acceptCommand op arg s).session := by
  cases h : hostOp op <;> by_cases r : cmdReady s = true <;>
    simp [acceptCommand, h, whenReady, r, acceptIdentify, acceptPoll, acceptPollr, writeRumble, launch, buildIdentify,
      buildPoll, buildRequest, State.setSession]

end Sys2Proof.Laws
end

