-- ==== Sys2Proof/Laws/PerInstr.lean ====
section
/-! SUPPORT. Families of statements made per operation. TableFormat: the encoding of an operation stands in the place the
opcode table's columns "format" and "width" give it (`30_encoding.md` R90, R105). -/

namespace Sys2Proof.Laws

/-- The column "format" of the opcode table. -/
inductive TableColumn where
  | none
  | hostCmd
  | internal
  | rawState
  | txw
  | wireFrame
  | slot
  | fsmCodec
  | fsmOrch
  | fsmSession
  | pin
  deriving DecidableEq, Repr

/-- The column of a code, and its width in bits. -/
def codeColumn : Code → TableColumn × Nat
  | .always => (.none, 0)
  | .hostCmd _ => (.hostCmd, 3)
  | .xfer _ _ _ => (.internal, 1)
  | .rawState _ => (.rawState, 64)
  | .txwFirst _ => (.txw, 32)
  | .txwLater _ => (.txw, 32)
  | .wireFrame bytes => (.wireFrame, 8 * bytes.length)
  | .slot levels => (.slot, levels.length)
  | .restartWire _ => (.fsmCodec, 1)
  | .codecState _ => (.fsmCodec, 3)
  | .orchState _ => (.fsmOrch, 3)
  | .sessionState _ => (.fsmSession, 2)
  | .rstPin _ => (.pin, 1)

/-- The columns "format" and "width" of the operation's row (the widths of SLOT rows are those of the reference
configuration). -/
def tableColumn : Instr → TableColumn × Nat
  | .identify | .poll | .setRumble _ | .pollr _ => (.hostCmd, 3)
  | .currentState => (.none, 0)
  | .transfer _ _ => (.internal, 1)
  | .decodeRaw _ => (.rawState, 64)
  | .txwC _ | .txwD _ => (.txw, 32)
  | .identifyReq => (.wireFrame, 8)
  | .pollReq _ => (.wireFrame, 24)
  | .bit0 | .bit1 => (.slot, 16)
  | .stop => (.slot, 4)
  | .armRestart => (.fsmCodec, 1)
  | .armCIdle | .armCTxWait | .armCTxBit | .armCStop => (.fsmCodec, 3)
  | .armCRxHigh | .armCRxArm | .armCRxSettle | .armCRxPush => (.fsmCodec, 3)
  | .armOIdle | .armOReset | .armOCtrl | .armOReq | .armOCollect | .armOSpace | .armODone => (.fsmOrch, 3)
  | .armSIdle | .armSStart | .armSWait => (.fsmSession, 2)
  | .reset => (.pin, 1)

/-- The encoding of `i` stands in its row's place and has its row's width. -/
def TableFormat.Statement (i : Instr) : Prop := codeColumn (encode Config.reference i) = tableColumn i

theorem TableFormat.identify : TableFormat.Statement .identify := rfl
theorem TableFormat.poll : TableFormat.Statement .poll := rfl
theorem TableFormat.setRumble (arg : Bool) : TableFormat.Statement (.setRumble arg) := rfl
theorem TableFormat.pollr (arg : Bool) : TableFormat.Statement (.pollr arg) := rfl
theorem TableFormat.currentState : TableFormat.Statement .currentState := rfl
theorem TableFormat.transfer (request : List Byte) (rslen : Nat) : TableFormat.Statement (.transfer request rslen) := rfl
theorem TableFormat.decodeRaw (raw : BitVec 64) : TableFormat.Statement (.decodeRaw raw) := rfl
theorem TableFormat.txwC (l : BitVec 5) : TableFormat.Statement (.txwC l) := rfl
theorem TableFormat.txwD (b : BitVec 8) : TableFormat.Statement (.txwD b) := rfl
theorem TableFormat.identifyReq : TableFormat.Statement .identifyReq := rfl
theorem TableFormat.pollReq (rumble : Bool) : TableFormat.Statement (.pollReq rumble) := rfl
theorem TableFormat.bit0 : TableFormat.Statement .bit0 := rfl
theorem TableFormat.bit1 : TableFormat.Statement .bit1 := rfl
theorem TableFormat.stop : TableFormat.Statement .stop := rfl
theorem TableFormat.armRestart : TableFormat.Statement .armRestart := rfl
theorem TableFormat.armCIdle : TableFormat.Statement .armCIdle := rfl
theorem TableFormat.armCTxWait : TableFormat.Statement .armCTxWait := rfl
theorem TableFormat.armCTxBit : TableFormat.Statement .armCTxBit := rfl
theorem TableFormat.armCStop : TableFormat.Statement .armCStop := rfl
theorem TableFormat.armCRxHigh : TableFormat.Statement .armCRxHigh := rfl
theorem TableFormat.armCRxArm : TableFormat.Statement .armCRxArm := rfl
theorem TableFormat.armCRxSettle : TableFormat.Statement .armCRxSettle := rfl
theorem TableFormat.armCRxPush : TableFormat.Statement .armCRxPush := rfl
theorem TableFormat.armOIdle : TableFormat.Statement .armOIdle := rfl
theorem TableFormat.armOReset : TableFormat.Statement .armOReset := rfl
theorem TableFormat.armOCtrl : TableFormat.Statement .armOCtrl := rfl
theorem TableFormat.armOReq : TableFormat.Statement .armOReq := rfl
theorem TableFormat.armOCollect : TableFormat.Statement .armOCollect := rfl
theorem TableFormat.armOSpace : TableFormat.Statement .armOSpace := rfl
theorem TableFormat.armODone : TableFormat.Statement .armODone := rfl
theorem TableFormat.armSIdle : TableFormat.Statement .armSIdle := rfl
theorem TableFormat.armSStart : TableFormat.Statement .armSStart := rfl
theorem TableFormat.armSWait : TableFormat.Statement .armSWait := rfl
theorem TableFormat.reset : TableFormat.Statement .reset := rfl

end Sys2Proof.Laws
end

