-- ==== Sys2Proof/Laws/Step.lean ====
section
/-! SUPPORT. What one step can do, said once. -/

namespace Sys2Proof.Laws

open Sys2Proof.Machine

/-- An outcome that is passed on. -/
theorem andThen_next {x : Host.Outcome State Fault Refusal} {k : State → Host.Outcome State Fault Refusal} {t : State}
    (h : andThen x k = .next t) : ∃ a, x = .next a ∧ k a = .next t := by
  cases x with
  | next a => exact ⟨a, rfl, h⟩
  | fault r => cases h
  | refused r => cases h

/-- A step that goes on either is the reset edge, or puts together the next states of the three arms of the cycle. -/
theorem step_next_cases {s t : State} (h : step s = .next t) :
    ((input s).rst = true ∧
      t = tick s { State.resetOf s.cfg with inputs := s.inputs, cycle := s.cycle, seen := s.seen }) ∨
    ((input s).rst = false ∧ ∃ a b c, exec (codecInstr s) s = .next a ∧ exec (orchInstr s) s = .next b ∧
      exec (sessionInstr s) s = .next c ∧ t = tick s (mergeArms s a b c)) := by
  unfold step at h
  split at h <;> rename_i hr
  · exact .inl ⟨hr, by cases h; rfl⟩
  · obtain ⟨a, ha, h⟩ := andThen_next h
    obtain ⟨b, hb, h⟩ := andThen_next h
    obtain ⟨c, hc, h⟩ := andThen_next h
    exact .inr ⟨by simpa using hr, a, b, c, ha, hb, hc, by cases h; rfl⟩

/-- The codec's arm always answers a next state (`60_exceptions.md` R240). -/
theorem codec_arm_next (s : State) : ∃ a, exec (codecInstr s) s = .next a := by
  unfold codecInstr
  split
  · exact ⟨_, rfl⟩
  · split
    · simp only [exec, execArmCIdle]; split <;> exact ⟨_, rfl⟩
    · simp only [exec, execArmCTxWait]; split <;> exact ⟨_, rfl⟩
    · simp only [exec, execArmCTxBit]; split_ifs <;> exact ⟨_, rfl⟩
    · simp only [exec, execArmCStop]; split_ifs <;> exact ⟨_, rfl⟩
    · exact ⟨_, rfl⟩
    · exact ⟨_, rfl⟩
    · simp only [exec, execArmCRxSettle]; split_ifs <;> exact ⟨_, rfl⟩
    · simp only [exec, execArmCRxPush]; split_ifs <;> exact ⟨_, rfl⟩

/-- The session layer's arm always answers a next state (`60_exceptions.md` R240). -/
theorem session_arm_next (s : State) : ∃ c, exec (sessionInstr s) s = .next c := by
  unfold sessionInstr
  split
  · exact ⟨_, rfl⟩
  · exact ⟨_, rfl⟩
  · simp only [exec, execArmSWait]
    split
    · split <;> exact ⟨_, rfl⟩
    · exact ⟨_, rfl⟩

end Sys2Proof.Laws
end

