-- ==== Sys2Proof/Tests/Slice0.lean ====
section
/-! SUPPORT. Tests: ill-formed operations refused, the decoding of words written out from the spec, single steps with
results taken from `95_test_vectors.md`, and states that meet the hypotheses of the obligations. -/

namespace Sys2Proof.Tests

open Sys2Proof.Machine

/-! ### Well-formedness (`30_encoding.md` R107 (c)): the four ways to be ill formed, and the two ends of the range -/

theorem test_wf_empty_request : wellFormed Config.reference (.transfer [] 3) = false := by decide
theorem test_wf_long_request : wellFormed Config.reference (.transfer [0x40#8, 0x03#8, 0x00#8, 0x00#8] 8) = false := by
  decide
theorem test_wf_no_response : wellFormed Config.reference (.transfer [0x41#8] 0) = false := by decide
theorem test_wf_long_response : wellFormed Config.reference (.transfer [0x41#8] 33) = false := by decide
theorem test_wf_shortest : wellFormed Config.reference (.transfer [0x41#8] 1) = true := by decide
theorem test_wf_longest : wellFormed Config.reference (.transfer [0x40#8, 0x03#8, 0x01#8] 32) = true := by decide

/-! ### Configurations (`00_scope.md` R6 to R9; `70_reset_and_hazards.md` R281: `REQ_MAX <= 17`) -/

theorem test_legal_reqMax_17 : (Params.standard 4 4 4 17).Legal := by decide
/-- The first inequality of R281 alone would let 18 pass. -/
theorem test_illegal_reqMax_18 : ¬ (Params.standard 4 4 4 18).Legal ∧ (Params.standard 4 4 4 18).RestartFits 18 := by decide
/-- `93_implementation_defined.md` U5, U4; `00_scope.md` R8. -/
theorem test_illegal_params : ¬ (Params.standard 1 4 4 3).Legal ∧ ¬ (Params.standard 4 0 4 3).Legal ∧
    ¬ (Params.standard 4 4 0 3).Legal ∧ ¬ (Params.standard 4 4 4 2).Legal := by decide

/-! ### Decoding: words written out from the column "encoding" of the opcode table and from `30_encoding.md` -/

theorem test_decode_identify : decode Config.reference (.hostCmd 0b000#3) = .ok .identify ∧
    decode Config.reference (.hostCmd 0b001#3) = .ok .identify := by decide
theorem test_decode_poll : decode Config.reference (.hostCmd 0b010#3) = .ok .poll ∧
    decode Config.reference (.hostCmd 0b011#3) = .ok .poll := by decide
theorem test_decode_set_rumble : decode Config.reference (.hostCmd 0b100#3) = .ok (.setRumble false) ∧
    decode Config.reference (.hostCmd 0b101#3) = .ok (.setRumble true) := by decide
theorem test_decode_pollr : decode Config.reference (.hostCmd 0b110#3) = .ok (.pollr false) ∧
    decode Config.reference (.hostCmd 0b111#3) = .ok (.pollr true) := by decide
theorem test_decode_current_state : decode Config.reference .always = .ok .currentState := by decide
theorem test_decode_transfer : decode Config.reference (.xfer 1#1 [0x41#8] 3) = .ok (.transfer [0x41#8] 3) := by decide
theorem test_decode_transfer_refused : decode Config.reference (.xfer 1#1 [0x41#8] 33) = .error .transferOperands ∧
    decode Config.reference (.xfer 0#1 [0x41#8] 3) = .error .noStart := by decide
theorem test_decode_decode : decode Config.reference (.rawState 0x0048808080800000#64) =
    .ok (.decodeRaw 0x0048808080800000#64) := by decide
/-- V9: the control words of lengths 1, 3, 8 and 32. -/
theorem test_decode_txwC : decode Config.reference (.txwFirst 0x00000000#32) = .ok (.txwC 0#5) ∧
    decode Config.reference (.txwFirst 0x10000000#32) = .ok (.txwC 2#5) ∧
    decode Config.reference (.txwFirst 0x38000000#32) = .ok (.txwC 7#5) ∧
    decode Config.reference (.txwFirst 0xF8000000#32) = .ok (.txwC 31#5) := by decide
/-- V19: the request words of a poll. -/
theorem test_decode_txwD : decode Config.reference (.txwLater 0x40000000#32) = .ok (.txwD 0x40#8) ∧
    decode Config.reference (.txwLater 0x01000000#32) = .ok (.txwD 0x01#8) := by decide
theorem test_decode_identify_req : decode Config.reference (.wireFrame [0b01000001#8]) = .ok .identifyReq := by decide
theorem test_decode_poll_req :
    decode Config.reference (.wireFrame [0b01000000#8, 0b00000011#8, 0b00000000#8]) = .ok (.pollReq false) ∧
    decode Config.reference (.wireFrame [0b01000000#8, 0b00000011#8, 0b00000001#8]) = .ok (.pollReq true) := by decide
theorem test_decode_no_frame :
    decode Config.reference (.wireFrame [0x40#8, 0x03#8, 0x02#8]) = .error .noFrame := by decide
/-- V16: a 0 is `L12 H4`. -/
theorem test_decode_bit0 : decode Config.reference (.slot (List.replicate 12 false ++ List.replicate 4 true)) =
    .ok .bit0 := by decide
/-- V16: a 1 is `L4 H12`. -/
theorem test_decode_bit1 : decode Config.reference (.slot (List.replicate 4 false ++ List.replicate 12 true)) =
    .ok .bit1 := by decide
/-- V16: STOP is `L4`. -/
theorem test_decode_stop : decode Config.reference (.slot [false, false, false, false]) = .ok .stop := by decide
theorem test_decode_no_symbol : decode Config.reference (.slot (List.replicate 16 true)) = .error .noSymbol := by decide
theorem test_decode_restart : decode Config.reference (.restartWire 1#1) = .ok .armRestart ∧
    decode Config.reference (.restartWire 0#1) = .error .noRestart := by decide
theorem test_decode_arm_c_idle : decode Config.reference (.codecState 0b000#3) = .ok .armCIdle := by decide
theorem test_decode_arm_c_txwait : decode Config.reference (.codecState 0b001#3) = .ok .armCTxWait := by decide
theorem test_decode_arm_c_txbit : decode Config.reference (.codecState 0b010#3) = .ok .armCTxBit := by decide
theorem test_decode_arm_c_stop : decode Config.reference (.codecState 0b011#3) = .ok .armCStop := by decide
theorem test_decode_arm_c_rxhigh : decode Config.reference (.codecState 0b100#3) = .ok .armCRxHigh := by decide
theorem test_decode_arm_c_rxarm : decode Config.reference (.codecState 0b101#3) = .ok .armCRxArm := by decide
theorem test_decode_arm_c_rxsettle : decode Config.reference (.codecState 0b110#3) = .ok .armCRxSettle := by decide
theorem test_decode_arm_c_rxpush : decode Config.reference (.codecState 0b111#3) = .ok .armCRxPush := by decide
theorem test_decode_arm_o_idle : decode Config.reference (.orchState 0b000#3) = .ok .armOIdle := by decide
theorem test_decode_arm_o_reset : decode Config.reference (.orchState 0b001#3) = .ok .armOReset := by decide
theorem test_decode_arm_o_ctrl : decode Config.reference (.orchState 0b010#3) = .ok .armOCtrl := by decide
theorem test_decode_arm_o_req : decode Config.reference (.orchState 0b011#3) = .ok .armOReq := by decide
theorem test_decode_arm_o_collect : decode Config.reference (.orchState 0b100#3) = .ok .armOCollect := by decide
theorem test_decode_arm_o_space : decode Config.reference (.orchState 0b101#3) = .ok .armOSpace := by decide
theorem test_decode_arm_o_done : decode Config.reference (.orchState 0b110#3) = .ok .armODone := by decide
theorem test_decode_arm_s_idle : decode Config.reference (.sessionState 0b00#2) = .ok .armSIdle := by decide
theorem test_decode_arm_s_start : decode Config.reference (.sessionState 0b01#2) = .ok .armSStart := by decide
theorem test_decode_arm_s_wait : decode Config.reference (.sessionState 0b10#2) = .ok .armSWait := by decide
theorem test_decode_no_state : decode Config.reference (.orchState 0b111#3) = .error .noOrchState ∧
    decode Config.reference (.sessionState 0b11#2) = .error .noSessionState := by decide
theorem test_decode_reset : decode Config.reference (.rstPin 1#1) = .ok .reset ∧
    decode Config.reference (.rstPin 0#1) = .error .noReset := by decide

/-- The table's rows of their own width, through the host's question. -/
theorem test_table_words : decodeTableWord 8 0b101 = some (.setRumble true) ∧
    decodeTableWord 0 0 = some .currentState ∧ decodeTableWord 8 0x41 = some .identifyReq ∧
    decodeTableWord 24 0x400301 = some (.pollReq true) ∧ decodeTableWord 16 0x000F = some .bit0 ∧
    decodeTableWord 16 0x0FFF = some .bit1 ∧ decodeTableWord 32 0x38000000 = some (.txwC 7#5) ∧
    decodeTableWord 32 0x41000000 = some (.txwD 0x41#8) ∧ decodeTableWord 8 0x99 = none := by decide

/-! ### Small states -/

/-- The smallest legal microsecond, queues of one entry: `T_SLOT = 8`, `T_SETTLE = 4`, `T_TIMEOUT = 1200`. -/
def small : Config := { Params.standard 2 1 1 3 with legal := by decide }

/-- Reset, with `n` quiet cycles ahead. -/
def quiet (n : Nat) : State := { State.resetOf small with inputs := List.replicate n Inputs.quiet }

/-- The reference machine after reset, with one quiet cycle ahead. -/
def start : State := { State.reset with inputs := [Inputs.quiet] }

/-- `s` with the command word `w` (`{cmd_op, cmd_arg}`) valid in the current cycle. -/
def port (w : BitVec 3) (s : State) : State :=
  { s with inputs := [{ Inputs.quiet with cmdValid := true, cmdOp := w.extractLsb' 1 2, cmdArg := w.getLsbD 0 }] }

/-- `s` with the peripheral pulling the line in the current cycle. -/
def pulled (s : State) : State := { s with inputs := [{ Inputs.quiet with periphLow := true }] }

/-- `s` with `rst` in the current cycle. -/
def reseting (s : State) : State := { s with inputs := s.inputs.map fun i : Inputs => { i with rst := true } }

/-- A codec state. -/
def codecAt (cs : CState) (ph : Nat) (bit rbit : BitVec 3) (s : State) : State :=
  s.setCodec { s.codec with cs := cs, ph := ph, bitc := bit, rbit := rbit }

/-- The session layer holds the identify request and waits; the orchestrator works on it. -/
def identifying (os : OState) (idx tmr : Nat) (s : State) : State :=
  let req := padRequest s.cfg identifyFrame
  (s.setSession { s.session with ss := .sWait, kind := .kId, sReq := req, sRqlen := 1, sRslen := 3 }).setOrch
    { s.orch with os := os, rq := req, rqlen := 1, rslen := 3, idx := idx, tmr := tmr }

/-- The session layer holds the poll request and waits; the orchestrator works on it. -/
def polling (os : OState) (idx tmr : Nat) (s : State) : State :=
  let req := padRequest s.cfg (pollFrame false)
  (s.setSession { s.session with ss := .sWait, kind := .kPoll, sReq := req, sRqlen := 3, sRslen := 8 }).setOrch
    { s.orch with os := os, rq := req, rqlen := 3, rslen := 8, idx := idx, tmr := tmr }

/-- What holds of the next state, if there is one. -/
def onNext (p : State → Bool) : Host.Outcome State Fault Refusal → Bool
  | .next t => p t
  | .fault _ | .refused _ => false

theorem onNext_spec {p : State → Bool} {x : Host.Outcome State Fault Refusal} (h : onNext p x = true) :
    ∃ t, x = .next t ∧ p t = true := by
  cases x with
  | next t => exact ⟨t, rfl, h⟩
  | fault r => cases h
  | refused r => cases h

theorem onNext_all {p : State → Bool} {x : Host.Outcome State Fault Refusal} (h : onNext p x = true) :
    ∀ t, x = .next t → p t = true := by
  obtain ⟨u, rfl, hu⟩ := onNext_spec h
  intro t ht
  cases ht
  exact hu

/-- There is a next state. -/
def goesOn (x : Host.Outcome State Fault Refusal) : Bool := onNext (fun _ => true) x

theorem goesOn_spec {x : Host.Outcome State Fault Refusal} (h : goesOn x = true) : ∃ t, x = .next t := by
  obtain ⟨t, ht, _⟩ := onNext_spec h
  exact ⟨t, ht⟩

/-! ### One step, results from the vectors -/

/-- V25. -/
theorem test_step_set_rumble :
    onNext (fun t => t.session.rumble && cmdReady t && decide (t.orch = start.orch)) (step (port 0b101#3 start)) = true := by
  decide
/-- V26. -/
theorem test_step_pollr :
    onNext (fun t => decide (t.session.ss = .sStart) && t.session.rumble && decide (t.session.kind = .kPoll) &&
      decide (t.session.sReq = [0x40#8, 0x03#8, 0x01#8]) && decide (t.session.sRqlen = 3) &&
      decide (t.session.sRslen = 8)) (step (port 0b111#3 start)) = true := by decide
/-- V30, cycle 1. -/
theorem test_step_identify :
    onNext (fun t => decide (t.session.ss = .sStart) && decide (t.session.kind = .kId) &&
      decide (t.session.sReq = [0x41#8, 0#8, 0#8]) && decide (t.session.sRqlen = 1) && decide (t.session.sRslen = 3))
      (step (port 0b000#3 start)) = true := by decide
/-- V31, the frame of a poll when `RUMBLE = 1`. -/
theorem test_step_poll :
    onNext (fun t => decide (t.session.sReq = [0x40#8, 0x03#8, 0x01#8])) (step (port 0b010#3 (writeRumble true start))) =
      true := by decide
/-- V27: a command while busy. -/
theorem test_step_busy :
    onNext (fun t => !t.session.rumble) (step (port 0b101#3 (start.setSession { start.session with ss := .sStart }))) =
      true := by decide
/-- V29: reset has priority over a command. -/
theorem test_step_reset :
    onNext (fun t => decide (t.session = start.session) && decide (t.codec = Codec.reset))
      (step (reseting (port 0b101#3 (codecAt .cTxBit 5 3#3 0#3 start)))) = true := by decide
/-- V30, cycle 3: the control word of an identify. -/
theorem test_step_ctrl :
    onNext (fun t => decide (t.txq = [0x10000000#32]) && decide (t.orch.os = .oReq)) (step (identifying .oCtrl 0 0 start)) =
      true := by decide
/-- V30, cycle 4: the codec pops the control word, the orchestrator pushes the request byte. -/
theorem test_step_req :
    onNext (fun t => decide (t.txq = [0x41000000#32]) && decide (t.codec.cs = .cTxWait) && decide (t.codec.rxn = 2#5) &&
      decide (t.orch.os = .oCollect) && decide (t.orch.tmr = 0))
      (step ((identifying .oReq 0 0 start).setTxq [0x10000000#32])) = true := by decide
/-- V30, cycle 5. -/
theorem test_step_first_slot :
    onNext (fun t => decide (t.codec.cs = .cTxBit) && decide (t.codec.osr = 0x41000000#32) && decide (t.txq = []) &&
      driveLow t) (step ((codecAt .cTxWait 0 0#3 0#3 (identifying .oCollect 0 0 start)).setTxq [0x41000000#32])) = true := by
  decide
/-- V30, cycle 133: the last cycle of the last byte. -/
theorem test_step_stop :
    onNext (fun t => decide (t.codec.cs = .cStop) && decide (t.codec.ph = 0))
      (step (codecAt .cTxBit 15 7#3 0#3 (identifying .oCollect 0 128 start))) = true := by decide
/-- V20: the sample of cycle `f + 8`, here a 0, the eighth bit. -/
theorem test_step_sample :
    onNext (fun t => decide (t.codec.cs = .cRxPush) && decide (t.codec.isr = 0xFE#8))
      (step (pulled ((codecAt .cRxSettle 7 0#3 7#3 start).setCodec
        { (codecAt .cRxSettle 7 0#3 7#3 start).codec with isr := 0xFF#8 }))) = true := by decide
/-- V36, `d = 2399`: a byte visible one cycle before the timeout is collected. -/
theorem test_step_collect_in_time :
    onNext (fun t => decide (t.orch.resp[0] = 0x5A#8) && decide (t.rxq = []) && decide (t.orch.idx = 1) &&
      decide (t.orch.tmr = 0)) (step ((identifying .oCollect 0 2399 start).setRxq [0x5A#8])) = true := by decide
/-- V36, `d = 2400`: the timeout wins the tie. -/
theorem test_step_timeout_wins :
    onNext (fun t => decide (t.orch.resp[0] = 0x00#8) && decide (t.rxq = [0x5A#8]) && decide (t.orch.os = .oSpace) &&
      decide (t.orch.tmr = 0)) (step ((identifying .oCollect 0 2400 start).setRxq [0x5A#8])) = true := by decide
/-- V22: the spacing of an identify is 1864 cycles. -/
theorem test_step_space :
    onNext (fun t => decide (t.orch.os = .oDone)) (step (identifying .oSpace 2 1863 start)) = true ∧
    onNext (fun t => decide (t.orch.os = .oSpace)) (step (identifying .oSpace 2 1862 start)) = true := by decide
/-- V30, cycle 2398: the result is stored. -/
theorem test_step_done :
    onNext (fun t => decide (t.session.idRaw = #v[0x09#8, 0x00#8, 0x03#8]) && cmdReady t && idNonzero t)
      (step ((identifying .oDone 2 0 start).setOrch { (identifying .oDone 2 0 start).orch with
        resp := ((Vector.replicate 32 0#8).set 0 0x09#8).set 2 0x03#8 })) = true := by decide
/-- V2. -/
theorem test_decode_outputs_up :
    onNext (fun t => t.seen.pad.btnL && t.seen.pad.dpadUp && decide (t.seen.pad.hat = .up) && !t.seen.pad.btnA &&
      decide (t.seen.pad.lx = 0x80#8) && decide (t.seen.pad.ry = 0x80#8) && decide (t.seen.pad.lt = 0x00#8))
      (exec (.decodeRaw 0x0048808080800000#64) start) = true := by decide
/-- V12: every analog field in its place. -/
theorem test_decode_outputs_analog :
    onNext (fun t => t.seen.pad.btnStart && t.seen.pad.btnZ && decide (t.seen.pad.hat = .idle) &&
      decide (t.seen.pad.lx = 18#8) && decide (t.seen.pad.ly = 52#8) && decide (t.seen.pad.rx = 86#8) &&
      decide (t.seen.pad.ry = 120#8) && decide (t.seen.pad.lt = 154#8) && decide (t.seen.pad.rt = 188#8))
      (exec (.decodeRaw 0x1F7F123456789ABC#64) start) = true := by decide
/-- V14, through `RAW` and CURRENT_STATE. -/
theorem test_current_state :
    onNext (fun t => t.seen.pad.dpadDown && t.seen.pad.dpadRight && !t.seen.pad.btnL && decide (t.seen.pad.hat = .downRight) &&
      decide (t.seen.pad.rt = 48#8))
      (exec .currentState (start.setSession { start.session with
        raw := #v[0x00#8, 0x86#8, 0x80#8, 0x80#8, 0x80#8, 0x80#8, 0x20#8, 0x30#8] })) = true := by decide
/-- What `withFetchWord` places, the next step runs. -/
theorem test_fetch_word : onNext (fun t => t.session.rumble) (step (State.reset.withFetchWord 8 0b101)) = true ∧
    onNext (fun t => decide (t.codec.rxn = 7#5)) (step (State.reset.withFetchWord 32 0x38000000)) = true ∧
    onNext (fun t => t.seen.driveLow) (step (State.reset.withFetchWord 16 0x000F)) = true := by decide

/-! ### States that meet the hypotheses of the obligations -/

/-- The last cycle of the identify request's byte: `O_COLLECT`, TXQ empty, the length field taken. -/
def mid : State :=
  let s := codecAt .cTxBit 7 7#3 0#3 (identifying .oCollect 0 63 (quiet 3))
  s.setCodec { s.codec with rxn := 2#5, osr := 0x80000000#32 }

theorem mid_inv : mid.Inv := ⟨by decide, by decide, by decide, by decide, by decide, by decide, by decide⟩
theorem mid_in_step : mid.CodecInStep := ⟨by decide, by decide, by decide, by decide⟩
theorem mid_goes_on : ∃ t, step mid = .next t := goesOn_spec (by decide)

/-- A poll whose second byte ends while the third waits in TXQ. -/
def streaming : State :=
  let s := codecAt .cTxBit 7 7#3 0#3 ((polling .oReq 2 0 (quiet 3)).setTxq [dataWord 0x03#8])
  s.setCodec { s.codec with rxn := 7#5 }

theorem streaming_inv : streaming.Inv :=
  ⟨by decide, by decide, by decide, by decide, by decide, by decide, by decide⟩
theorem streaming_in_step : streaming.CodecInStep := ⟨by decide, by decide, by decide, by decide⟩

/-- A transfer in a state of the orchestrator in which the codec is at rest, armed. -/
def resting (os : OState) : State := codecAt .cRxArm 0 0#3 0#3 (identifying os 2 0 (quiet 3))

theorem resting_reset_inv : (resting .oReset).Inv :=
  ⟨by decide, by decide, by decide, by decide, by decide, by decide, by decide⟩
theorem resting_space_inv : (resting .oSpace).Inv :=
  ⟨by decide, by decide, by decide, by decide, by decide, by decide, by decide⟩
theorem resting_done_inv : (resting .oDone).Inv :=
  ⟨by decide, by decide, by decide, by decide, by decide, by decide, by decide⟩
theorem quiet_inv : (quiet 3).Inv := ⟨by decide, by decide, by decide, by decide, by decide, by decide, by decide⟩
theorem resting_in_step : (resting .oReset).CodecInStep ∧ (resting .oSpace).CodecInStep ∧ (resting .oDone).CodecInStep ∧
    (quiet 3).CodecInStep :=
  ⟨⟨by decide, by decide, by decide, by decide⟩, ⟨by decide, by decide, by decide, by decide⟩,
    ⟨by decide, by decide, by decide, by decide⟩, ⟨by decide, by decide, by decide, by decide⟩⟩
theorem small_safe : (quiet 3).RestartSafe ∧ mid.RestartSafe ∧ streaming.RestartSafe ∧ (resting .oReset).RestartSafe ∧
    (resting .oSpace).RestartSafe ∧ (resting .oDone).RestartSafe := by decide

theorem witness_DecodeEncodeRoundTrip : wellFormed small (.transfer [0x40#8, 0x03#8, 0x00#8] 32) = true ∧
    wellFormed small (.transfer [0x41#8] 1) = true ∧ wellFormed small .stop = true := by decide
theorem witness_StepKeepsInvariant : mid.Inv ∧ ∃ t, step mid = .next t := ⟨mid_inv, mid_goes_on⟩
theorem witness_CodecStaysInStep : mid.RestartSafe ∧ mid.Inv ∧ mid.CodecInStep ∧ ∃ t, step mid = .next t :=
  ⟨small_safe.2.1, mid_inv, mid_in_step, mid_goes_on⟩
theorem witness_StepNeverStops : mid.Inv := mid_inv
/-- One state for each of the four orchestrator states, after no cycle. -/
theorem witness_WireReleasedOutsideExchange :
    ((quiet 3).RestartSafe ∧ (quiet 3).Inv ∧ (quiet 3).CodecInStep ∧ cycles 0 (quiet 3) = .next (quiet 3) ∧
      (quiet 3).orch.os = .oIdle) ∧
    ((resting .oReset).RestartSafe ∧ (resting .oReset).Inv ∧ (resting .oReset).CodecInStep ∧
      cycles 0 (resting .oReset) = .next (resting .oReset) ∧ (resting .oReset).orch.os = .oReset) ∧
    ((resting .oSpace).RestartSafe ∧ (resting .oSpace).Inv ∧ (resting .oSpace).CodecInStep ∧
      cycles 0 (resting .oSpace) = .next (resting .oSpace) ∧ (resting .oSpace).orch.os = .oSpace) ∧
    ((resting .oDone).RestartSafe ∧ (resting .oDone).Inv ∧ (resting .oDone).CodecInStep ∧
      cycles 0 (resting .oDone) = .next (resting .oDone) ∧ (resting .oDone).orch.os = .oDone) :=
  ⟨⟨small_safe.1, quiet_inv, resting_in_step.2.2.2, rfl, rfl⟩,
    ⟨small_safe.2.2.2.1, resting_reset_inv, resting_in_step.1, rfl, rfl⟩,
    ⟨small_safe.2.2.2.2.1, resting_space_inv, resting_in_step.2.1, rfl, rfl⟩,
    ⟨small_safe.2.2.2.2.2, resting_done_inv, resting_in_step.2.2.1, rfl, rfl⟩⟩
/-- The last cycle of the second byte, the third byte's word waiting in TXQ. -/
theorem witness_RequestNeverCutShort : ∃ s t : State, s.Inv ∧ s.CtrlInStep ∧ s.ReqInStep ∧ cycles 0 s = .next t ∧
    t.orch.os = .oReq ∧ t.codec.cs = .cTxBit ∧ t.codec.ph = t.cfg.tSlot - 1 ∧ t.codec.bitc = 7#3 :=
  ⟨streaming, streaming, streaming_inv, streaming_in_step.2.1, streaming_in_step.2.2.1, rfl, rfl, rfl, rfl, rfl⟩
theorem witness_RstOverridesEverything : (input (reseting mid)).rst = true := by decide
theorem witness_IdentifyAtAcceptance : (quiet 3).session.ss = .sIdle := by decide
theorem witness_PollAtAcceptance : (writeRumble true (quiet 3)).session.ss = .sIdle ∧
    (writeRumble true (quiet 3)).session.rumble = true ∧ (quiet 3).session.rumble = false := by decide
theorem witness_SetRumbleAtAcceptance : (quiet 3).session.ss = .sIdle ∧ mid.session.ss ≠ .sIdle := by decide
theorem witness_PollrIsSetRumbleThenPoll : (quiet 3).session.ss = .sIdle := by decide
theorem witness_CommandsIgnoredWhenBusy : mid.session.ss ≠ .sIdle := by decide
/-- Both ends of both ranges. -/
theorem witness_TransferStartsWhenIdle : (quiet 3).orch.os = .oIdle ∧ 1 ≤ [0x41#8].length ∧
    [0x41#8, 0#8, 0#8].length ≤ (quiet 3).cfg.reqMax ∧ (1 : Nat) ≤ 1 ∧ (32 : Nat) ≤ 32 := by decide
/-- Each end of each range passed by one, and a start with such operands. -/
theorem witness_TransferOtherwise : mid.orch.os ≠ .oIdle ∧ (quiet 3).orch.os = .oIdle ∧
    (∀ q r : Nat, (q, r) ∈ [(0, 3), (4, 3), (1, 0), (1, 33)] →
      ¬ (1 ≤ q ∧ q ≤ (quiet 3).cfg.reqMax ∧ 1 ≤ r ∧ r ≤ 32)) := by
  refine ⟨by decide, by decide, fun q r h => ?_⟩
  simp only [List.mem_cons, Prod.mk.injEq, List.not_mem_nil, or_false] at h
  rcases h with ⟨rfl, rfl⟩ | ⟨rfl, rfl⟩ | ⟨rfl, rfl⟩ | ⟨rfl, rfl⟩ <;> decide
/-- A start with a response length of 33. -/
def badStart : State :=
  (quiet 3).setSession { (quiet 3).session with ss := .sStart, sRqlen := 1, sRslen := 33 }
theorem witness_TransferOtherwise_start : badStart.session.ss = .sStart ∧
    ¬ (1 ≤ badStart.session.sRqlen ∧ badStart.session.sRqlen ≤ badStart.cfg.reqMax ∧ 1 ≤ badStart.session.sRslen ∧
      badStart.session.sRslen ≤ 32) := by decide

/-- The sampling cycle, with `rbit` samples of the byte taken. -/
def sampling (rbit : BitVec 3) : State := codecAt .cRxSettle 3 0#3 rbit (quiet 3)

theorem witness_BitSymbolsSentAndTaken : mid.codec.cs = .cTxBit ∧
    ((sampling 6#3).codec.cs = .cRxSettle ∧ (sampling 6#3).codec.ph = (sampling 6#3).cfg.tSettle - 1 ∧
      (sampling 6#3).codec.rbit ≠ 7#3) ∧
    ((sampling 7#3).codec.cs = .cRxSettle ∧ (sampling 7#3).codec.ph = (sampling 7#3).cfg.tSettle - 1 ∧
      (sampling 7#3).codec.rbit = 7#3) ∧
    (let s := codecAt .cRxSettle 2 0#3 0#3 (quiet 3)
     s.codec.cs ≠ .cTxBit ∧ (s.codec.cs = .cRxSettle → s.codec.ph ≠ s.cfg.tSettle - 1)) := by decide
theorem witness_StopSymbolSent : (codecAt .cStop 1 0#3 0#3 (quiet 3)).codec.cs = .cStop ∧ mid.codec.cs ≠ .cStop := by
  decide
theorem witness_CIdleTakesControlWord : ((quiet 3).setTxq [0xF8000000#32]).txq = 0xF8000000#32 :: [] ∧
    (quiet 3).txq = [] ∧ (quiet 3).codec.cs = .cIdle := by decide
theorem witness_CTxWaitTakesFirstWord : ((quiet 3).setTxq [0x41000000#32]).txq = 0x41000000#32 :: [] ∧
    (quiet 3).txq = [] ∧ (codecAt .cTxWait 0 0#3 0#3 (quiet 3)).codec.cs = .cTxWait := by decide
/-- The last cycle before, and the last cycle of, a slot; the seventh and the eighth slot; with and without a word. -/
theorem witness_CTxBitSendsSlots :
    (codecAt .cTxBit 6 0#3 0#3 (quiet 3)).codec.ph < small.tSlot - 1 ∧
    ((codecAt .cTxBit 7 6#3 0#3 (quiet 3)).codec.ph = small.tSlot - 1 ∧
      (codecAt .cTxBit 7 6#3 0#3 (quiet 3)).codec.bitc.toNat < 7) ∧
    (streaming.codec.ph = streaming.cfg.tSlot - 1 ∧ streaming.codec.bitc = 7#3 ∧
      streaming.txq = dataWord 0x03#8 :: []) ∧
    (mid.codec.ph = mid.cfg.tSlot - 1 ∧ mid.codec.bitc = 7#3 ∧ mid.txq = [] ∧ mid.codec.cs = .cTxBit) := by decide
theorem witness_CStopThenListens : (codecAt .cStop 0 0#3 0#3 (quiet 3)).codec.ph < small.tStopLow - 1 ∧
    (codecAt .cStop 1 0#3 0#3 (quiet 3)).codec.ph = small.tStopLow - 1 ∧
    (codecAt .cStop 1 0#3 0#3 (quiet 3)).codec.cs = .cStop := by decide
/-- For ARM_C_RXHIGH and ARM_C_RXARM: a released line, and a line the peripheral pulls. -/
theorem witness_CRxHighArmsOnHighLine : (driveLow (quiet 3) = false ∧ (input (quiet 3)).periphLow = false) ∧
    ¬ (driveLow (pulled (quiet 3)) = false ∧ (input (pulled (quiet 3))).periphLow = false) := by decide
theorem witness_CRxArmDetectsFallingEdge :
    ¬ (driveLow (pulled (quiet 3)) = false ∧ (input (pulled (quiet 3))).periphLow = false) ∧
    (driveLow (quiet 3) = false ∧ (input (quiet 3)).periphLow = false) := by decide
theorem witness_CRxSettleSamplesOnce : (codecAt .cRxSettle 2 0#3 0#3 (quiet 3)).codec.ph < small.tSettle - 1 ∧
    ((sampling 6#3).codec.ph = small.tSettle - 1 ∧ (sampling 6#3).codec.rbit.toNat < 7) ∧
    ((sampling 7#3).codec.ph = small.tSettle - 1 ∧ (sampling 7#3).codec.rbit.toNat = 7) := by decide
theorem witness_CRxPushHandsByteOver :
    ((quiet 3).rxq.length < (quiet 3).cfg.qdRx ∧ (quiet 3).codec.rxn = 0#5) ∧
    (mid.rxq.length < mid.cfg.qdRx ∧ mid.codec.rxn ≠ 0#5) ∧
    (mid.setRxq [0x5A#8]).cfg.qdRx ≤ (mid.setRxq [0x5A#8]).rxq.length := by decide

/-- The identify request is about to be started. -/
def starting : State :=
  (quiet 3).setSession { (quiet 3).session with
    ss := .sStart, kind := .kId, sReq := padRequest small identifyFrame, sRqlen := 1, sRslen := 3 }

/-- A start with operands in range, and no start. -/
theorem witness_OIdleLatchesRequest : (starting.session.ss = .sStart ∧ 1 ≤ starting.session.sRqlen ∧
      starting.session.sRqlen ≤ starting.cfg.reqMax ∧ 1 ≤ starting.session.sRslen ∧ starting.session.sRslen ≤ 32) ∧
    (quiet 3).session.ss ≠ .sStart := by decide
/-- 32 bytes expected, one byte expected, and a full queue. -/
theorem witness_OCtrlPushesControlWord :
    (let s := (quiet 3).setOrch { (quiet 3).orch with rslen := 32 }
     s.txq.length < s.cfg.qdTx ∧ 1 ≤ s.orch.rslen ∧ s.orch.rslen ≤ 32) ∧
    ((quiet 3).txq.length < (quiet 3).cfg.qdTx ∧ 1 ≤ (quiet 3).orch.rslen ∧ (quiet 3).orch.rslen ≤ 32) ∧
    streaming.cfg.qdTx ≤ streaming.txq.length := by decide
/-- The last byte, a byte that is not the last, and a full queue. -/
theorem witness_OReqStreamsBytes :
    (let s := streaming.setTxq []
     s.orch.rq[s.orch.idx]? = some 0x00#8 ∧ s.txq.length < s.cfg.qdTx ∧ s.orch.idx + 1 = s.orch.rqlen) ∧
    (let s := polling .oReq 1 0 (quiet 3)
     s.orch.rq[s.orch.idx]? = some 0x03#8 ∧ s.txq.length < s.cfg.qdTx ∧ s.orch.idx + 1 < s.orch.rqlen) ∧
    (streaming.orch.rq[streaming.orch.idx]? = some 0x00#8 ∧ streaming.cfg.qdTx ≤ streaming.txq.length) := by decide
/-- The timeout with a byte in RXQ; one cycle before it, the last byte, a byte that is not the last, and no byte. -/
theorem witness_OCollectTimeoutByteOrWait :
    ((identifying .oCollect 0 1200 (quiet 3)).setRxq [0x5A#8]).orch.tmr = 600 * small.nUs ∧
    (let s := (identifying .oCollect 2 1199 (quiet 3)).setRxq [0x5A#8]
     s.orch.tmr < 600 * s.cfg.nUs ∧ s.orch.idx ≤ 31 ∧ s.rxq = 0x5A#8 :: [] ∧ s.orch.idx + 1 = s.orch.rslen) ∧
    (let s := (identifying .oCollect 1 1199 (quiet 3)).setRxq [0x5A#8]
     s.orch.tmr < 600 * s.cfg.nUs ∧ s.orch.idx ≤ 31 ∧ s.rxq = 0x5A#8 :: [] ∧ s.orch.idx + 1 < s.orch.rslen) ∧
    (let s := identifying .oCollect 1 1199 (quiet 3)
     s.orch.tmr < 600 * s.cfg.nUs ∧ s.rxq = []) := by decide
/-- V22 at `N_US = 2`: 932 cycles. -/
theorem witness_OSpaceCountsSpacing :
    (let s := identifying .oSpace 2 931 (quiet 3)
     s.orch.tmr + 1 = (4 * (s.orch.rqlen + s.orch.rslen) + 450) * s.cfg.nUs) ∧
    (let s := identifying .oSpace 2 930 (quiet 3)
     s.orch.tmr + 1 < (4 * (s.orch.rqlen + s.orch.rslen) + 450) * s.cfg.nUs) := by decide
theorem witness_SIdleAcceptsOrStays : (∀ op : BitVec 2,
      (port (op ++ 1#1) (quiet 3)).session.ss = .sIdle ∧ (input (port (op ++ 1#1) (quiet 3))).cmdValid = true ∧
      (input (port (op ++ 1#1) (quiet 3))).cmdOp = op) ∧
    ((quiet 3).session.ss = .sIdle ∧ (input (quiet 3)).cmdValid = false) := by decide
theorem witness_SWaitStoresResultWholesale :
    ((identifying .oDone 2 0 (quiet 3)).orch.os = .oDone ∧ (identifying .oDone 2 0 (quiet 3)).session.kind = .kId) ∧
    ((polling .oDone 7 0 (quiet 3)).orch.os = .oDone ∧ (polling .oDone 7 0 (quiet 3)).session.kind = .kPoll) ∧
    mid.orch.os ≠ .oDone := by decide
/-- The three arms of `mid` answer next states, and the arm of `badStart` refuses. -/
theorem witness_StepRunsDecodedArms :
    ((input mid).rst = false ∧
      decode mid.cfg (if restart mid then .restartWire 1#1 else .codecState (csCode mid.codec.cs)) = .ok .armCTxBit ∧
      decode mid.cfg (.orchState (osCode mid.orch.os)) = .ok .armOCollect ∧
      decode mid.cfg (.sessionState (ssCode mid.session.ss)) = .ok .armSWait ∧
      goesOn (exec .armCTxBit mid) = true ∧ goesOn (exec .armOCollect mid) = true ∧ goesOn (exec .armSWait mid) = true) ∧
    ((input badStart).rst = false ∧
      decode badStart.cfg (if restart badStart then .restartWire 1#1 else .codecState (csCode badStart.codec.cs)) =
        .ok .armCIdle ∧
      decode badStart.cfg (.orchState (osCode badStart.orch.os)) = .ok .armOIdle ∧
      decode badStart.cfg (.sessionState (ssCode badStart.session.ss)) = .ok .armSStart) := by decide
theorem witness_StepRunsDecodedArms_refusal : exec .armOIdle badStart = .refused .transferOperands := rfl
theorem witness_StepRunsPresentedCommand : (∀ w : BitVec 3,
    (input (port w (quiet 3))).rst = false ∧ (input (port w (quiet 3))).cmdValid = true ∧
    (port w (quiet 3)).session.ss = .sIdle ∧
    hostCmdWord (input (port w (quiet 3))).cmdOp (input (port w (quiet 3))).cmdArg = w) := by decide
/-- A symbol sent, a symbol recognised, none, a control word taken, a data word taken in `C_TXWAIT` and at the end of a
byte. -/
theorem witness_StepRunsSymbolsAndWords :
    (let s := mid
     (input s).rst = false ∧ restart s = false ∧ goesOn (step s) = true ∧ lineSymbol s = some .bit1 ∧
     s.codec.cs ≠ .cRxSettle ∧ goesOn (exec .bit1 s) = true) ∧
    (let s := pulled (sampling 7#3)
     (input s).rst = false ∧ restart s = false ∧ goesOn (step s) = true ∧ lineSymbol s = some .bit0 ∧
     s.codec.cs = .cRxSettle ∧ goesOn (exec .bit0 s) = true) ∧
    (let s := quiet 3
     (input s).rst = false ∧ restart s = false ∧ goesOn (step s) = true ∧ lineSymbol s = none) ∧
    (let s := (quiet 3).setTxq [0x10000000#32]
     (input s).rst = false ∧ restart s = false ∧ goesOn (step s) = true ∧ s.codec.cs = .cIdle ∧
     decode s.cfg (.txwFirst 0x10000000#32) = .ok (.txwC 2#5) ∧ goesOn (exec (.txwC 2#5) s) = true) ∧
    (let s := codecAt .cTxWait 0 0#3 0#3 ((quiet 3).setTxq [0x41000000#32])
     (input s).rst = false ∧ restart s = false ∧ goesOn (step s) = true ∧ s.codec.cs = .cTxWait ∧
     BitVec.extractLsb' 0 24 0x41000000#32 = 0#24 ∧
     decode s.cfg (.txwLater 0x41000000#32) = .ok (.txwD 0x41#8) ∧ goesOn (exec (.txwD 0x41#8) s) = true) ∧
    (let s := streaming
     (input s).rst = false ∧ restart s = false ∧ goesOn (step s) = true ∧ s.codec.cs = .cTxBit ∧
     s.codec.ph = s.cfg.tSlot - 1 ∧ s.codec.bitc = 7#3 ∧ s.txq = dataWord 0x03#8 :: []) := by decide
/-- Under restart, and in an edge that pops and does not push. -/
theorem witness_QueuesAtTheEdge :
    ((input (resting .oReset)).rst = false ∧ (resting .oReset).PhaseOk ∧ goesOn (step (resting .oReset)) = true ∧
      (resting .oReset).orch.os = .oReset) ∧
    ((input streaming).rst = false ∧ streaming.PhaseOk ∧ goesOn (step streaming) = true ∧
      streaming.orch.os ≠ .oReset) := by decide
/-- With room in TXQ, in `O_CTRL` and in `O_REQ`. -/
theorem witness_QueuesAtTheEdge_push :
    (let s := identifying .oCtrl 0 0 (quiet 3)
     (input s).rst = false ∧ s.PhaseOk ∧ goesOn (step s) = true ∧ s.orch.os = .oCtrl ∧
     s.txq.length < s.cfg.qdTx) ∧
    (let s := polling .oReq 1 0 (quiet 3)
     (input s).rst = false ∧ s.PhaseOk ∧ goesOn (step s) = true ∧ s.orch.os = .oReq ∧
     s.txq.length < s.cfg.qdTx ∧ s.orch.rq[s.orch.idx]? = some 0x03#8) := by decide
theorem witness_OutputsOfTheCycle : ∃ t, step mid = .next t := mid_goes_on
theorem witness_SessionDataChangesOnlyByRule :
    ((input mid).rst = false ∧ goesOn (step mid) = true ∧
      ¬ (mid.session.ss = .sWait ∧ mid.orch.os = .oDone ∧ mid.session.kind = .kPoll) ∧
      ¬ (mid.session.ss = .sWait ∧ mid.orch.os = .oDone ∧ mid.session.kind = .kId)) ∧
    ((input (port 0b101#3 (quiet 3))).rst = false ∧ goesOn (step (port 0b101#3 (quiet 3))) = true ∧
      (port 0b101#3 (quiet 3)).session.ss = .sIdle ∧ (input (port 0b101#3 (quiet 3))).cmdValid = true ∧
      (input (port 0b101#3 (quiet 3))).cmdOp = 2#2) := by decide
/-- Two states that differ in the session layer and the orchestrator. -/
theorem witness_CodecIndependentOfTheRest :
    (let s := quiet 3
     let s' := port 0b111#3 (polling .oSpace 7 5 (quiet 3))
     (input s).rst = false ∧ (input s').rst = false ∧ s.cfg = s'.cfg ∧ s.codec = s'.codec ∧ s.txq = s'.txq ∧
     s.rxq = s'.rxq ∧ restart s = restart s' ∧ lineIn s = lineIn s' ∧ s.orch ≠ s'.orch ∧ goesOn (step s) = true ∧
     goesOn (step s') = true) := by decide
theorem witness_LineUnreadOutsideReceiving : mid.inputs = Inputs.quiet :: List.replicate 2 Inputs.quiet ∧
    mid.codec.cs = .cTxBit ∧
    (let s := codecAt .cRxSettle 2 0#3 0#3 (quiet 3)
     s.inputs = Inputs.quiet :: List.replicate 2 Inputs.quiet ∧ s.codec.cs = .cRxSettle ∧
     s.codec.ph < s.cfg.tSettle - 1) := by decide
theorem witness_PortUnreadWhenBusy : mid.inputs = Inputs.quiet :: List.replicate 2 Inputs.quiet ∧
    mid.session.ss ≠ .sIdle ∧ Inputs.quiet.cmdValid = false := by decide

/-- In a state with `n` quiet cycles ahead, none of them holds `rst`. -/
theorem no_reset_of_quiet {s : State} {n : Nat} (h : s.inputs = List.replicate n Inputs.quiet) :
    ∀ k < n, (inputAt s k).rst = false := by
  intro k hk
  simp [inputAt, h, hk, Inputs.quiet]

theorem witness_SpacingLastsExactly :
    let s := identifying .oSpace 2 0 (quiet 932)
    s.orch.os = .oSpace ∧ s.orch.tmr = 0 ∧ s.session.ss = .sWait ∧
      (∀ k < (4 * (s.orch.rqlen + s.orch.rslen) + 450) * s.cfg.nUs, (inputAt s k).rst = false) :=
  ⟨rfl, rfl, rfl, no_reset_of_quiet rfl⟩

/-- The first cycle of collection of an identify response, the codec waiting for its word, `n` quiet cycles ahead. -/
def collecting (n : Nat) : State :=
  (codecAt .cTxWait 0 0#3 0#3 (identifying .oCollect 0 0 (quiet n))).setTxq [dataWord 0x41#8]

theorem witness_CollectionEndsInTime :
    let s := collecting 3601
    s.Inv ∧ s.orch.os = .oCollect ∧ s.orch.idx = 0 ∧ s.orch.tmr = 0 ∧
      (∀ k < s.orch.rslen * (600 * s.cfg.nUs) + 1, (inputAt s k).rst = false) :=
  ⟨⟨by decide, by decide, by decide, by decide, by decide, by decide, by decide⟩, rfl, rfl, rfl, no_reset_of_quiet rfl⟩

/-- The first cycle of a slot, eight quiet cycles ahead, not the eighth slot. -/
def slot : State :=
  let s := codecAt .cTxBit 0 6#3 0#3 (identifying .oCollect 0 2 (quiet 8))
  s.setCodec { s.codec with osr := 0x80000000#32 }

theorem witness_SlotOnTheWire : slot.Inv ∧ slot.codec.cs = .cTxBit ∧ slot.codec.ph = 0 ∧
    (∀ k < slot.cfg.tSlot, (inputAt slot k).rst = false) ∧
    (∀ k < slot.cfg.tSlot, ∀ u, cycles k slot = .next u → restart u = false) ∧ slot.codec.bitc.toNat < 7 := by
  refine ⟨⟨by decide, by decide, by decide, by decide, by decide, by decide, by decide⟩, rfl, rfl, no_reset_of_quiet rfl,
    fun k hk u hu => ?_, by decide⟩
  have h : ∀ k < 8, onNext (fun u => !restart u) (cycles k slot) = true := by decide
  simpa using onNext_all (h k hk) u hu

/-- An armed codec with `rbit` samples taken and `rxn` bytes to follow; the peripheral sends a 0 in the eight cycles
ahead (`N_US = 2`: `L6 H2`). -/
def armed (rbit : BitVec 3) (rxn : BitVec 5) : State :=
  let s := codecAt .cRxArm 0 0#3 rbit (identifying .oCollect 0 500 (quiet 0))
  { s.setCodec { s.codec with rxn := rxn } with
    inputs := List.replicate 6 { Inputs.quiet with periphLow := true } ++ List.replicate 2 Inputs.quiet }

/-- The hypotheses common to all clauses of SlotReceived. -/
abbrev SlotSent (s : State) : Prop := s.Inv ∧ s.codec.cs = .cRxArm ∧
    (∀ k < s.cfg.tSlot, (inputAt s k).rst = false) ∧
    (∀ k < s.cfg.tSlot, ∀ u, cycles k s = .next u → restart u = false) ∧
    (∀ k < s.cfg.tSlot, (slotLevels s.cfg false)[k]? = some (!(inputAt s k).periphLow))

theorem armed_slot_sent (rbit : BitVec 3) (rxn : BitVec 5)
    (h : ∀ k < 8, onNext (fun u => !restart u) (cycles k (armed rbit rxn)) = true) : SlotSent (armed rbit rxn) := by
  have hi : (armed 0#3 0#5).Inv := ⟨by decide, by decide, by decide, by decide, by decide, by decide, by decide⟩
  have hr : ∀ k < 8, (inputAt (armed 0#3 0#5) k).rst = false := by decide
  have hl : ∀ k < 8, (slotLevels small false)[k]? = some (!(inputAt (armed 0#3 0#5) k).periphLow) := by decide
  exact ⟨hi, rfl, hr, fun k hk u hu => by simpa using onNext_all (h k hk) u hu, hl⟩

/-- The seventh slot of a byte. -/
theorem witness_SlotReceived_seventh : SlotSent (armed 6#3 2#5) ∧ (armed 6#3 2#5).codec.rbit.toNat < 7 :=
  ⟨armed_slot_sent _ _ (by decide), by decide⟩

/-- The eighth slot of a byte that is not the last. -/
theorem witness_SlotReceived_eighth : SlotSent (armed 7#3 2#5) ∧ (armed 7#3 2#5).codec.rbit = 7#3 ∧
    (armed 7#3 2#5).rxq.length < (armed 7#3 2#5).cfg.qdRx ∧ (armed 7#3 2#5).codec.rxn ≠ 0#5 :=
  ⟨armed_slot_sent _ _ (by decide), by decide, by decide, by decide⟩

/-- The eighth slot of the last byte. -/
theorem witness_SlotReceived_last : SlotSent (armed 7#3 0#5) ∧ (armed 7#3 0#5).codec.rbit = 7#3 ∧
    (armed 7#3 0#5).rxq.length < (armed 7#3 0#5).cfg.qdRx ∧ (armed 7#3 0#5).codec.rxn = 0#5 ∧
    (armed 7#3 0#5).txq = [] ∧ (armed 7#3 0#5).orch.os ≠ .oCtrl ∧ (armed 7#3 0#5).orch.os ≠ .oReq :=
  ⟨armed_slot_sent _ _ (by decide), by decide, by decide, by decide, by decide, by decide, by decide⟩

/-- V18 at `N_US = 2`: the identify request is about to be pushed; 66 cycles of slots and STOP, 4 before them. -/
theorem witness_RequestOnTheWire :
    let s := identifying .oCtrl 0 0 (quiet 70)
    s.RestartSafe ∧ s.Inv ∧ s.CtrlInStep ∧ s.orch.os = .oCtrl ∧ s.cfg.qdTx = 1 ∧
      (∀ k < 4 + (8 * s.orch.rqlen * s.cfg.tSlot + s.cfg.tStopLow), (inputAt s k).rst = false) :=
  ⟨by decide, ⟨by decide, by decide, by decide, by decide, by decide, by decide, by decide⟩, by decide, rfl, rfl,
    no_reset_of_quiet rfl⟩

/-- V30 from cycle 3: the same at the reference configuration, where TXQ is deeper than one word; 132 cycles of slots and
STOP, 3 before them. -/
theorem witness_RequestOnTheWire_deep :
    let s := identifying .oCtrl 0 0 { State.reset with inputs := List.replicate 135 Inputs.quiet }
    s.RestartSafe ∧ s.Inv ∧ s.CtrlInStep ∧ s.orch.os = .oCtrl ∧ s.cfg.qdTx ≠ 1 ∧
      (∀ k < 3 + (8 * s.orch.rqlen * s.cfg.tSlot + s.cfg.tStopLow), (inputAt s k).rst = false) :=
  ⟨by decide, ⟨by decide, by decide, by decide, by decide, by decide, by decide, by decide⟩, by decide, rfl, by decide,
    no_reset_of_quiet rfl⟩

/-- The bytes of a request in the order of `20_memory.md` R67, R68 at `N_US = 2`: the first two slots of `0x41` (0, then
1), and STOP after eight. -/
theorem test_request_levels :
    (requestLevels small [0x41#8]).take 16 =
      List.replicate 6 false ++ List.replicate 2 true ++ List.replicate 2 false ++ List.replicate 6 true ∧
    (requestLevels small [0x41#8]).drop 64 = [false, false] := by decide

end Sys2Proof.Tests
end

section
/-! The arms of a cycle, as the decoder reads them from the registers, and what a step with `rst = 0` makes of their
outcomes (`00_scope.md` R11, R12). -/

namespace Sys2Proof.Proofs

open Sys2Proof.Machine

/-! ### The decoder on the codes of the registers -/

/-- The wire `restart` and the register `cs` decode to the codec's arm (`40_codec.md` R120, `10_state.md` R33). -/
theorem decode_codecCode (s : State) :
    decode s.cfg (if restart s then .restartWire 1#1 else .codecState (csCode s.codec.cs)) = .ok (codecInstr s) := by
  unfold codecInstr
  cases restart s
  case true => rfl
  case false => cases s.codec.cs <;> rfl

/-- The register `os` decodes to the orchestrator's arm (`10_state.md` R40). -/
theorem decode_orchCode (s : State) : decode s.cfg (.orchState (osCode s.orch.os)) = .ok (orchInstr s) := by
  unfold orchInstr
  cases s.orch.os <;> rfl

/-- The register `ss` decodes to the session layer's arm (`10_state.md` R47). -/
theorem decode_sessionCode (s : State) : decode s.cfg (.sessionState (ssCode s.session.ss)) = .ok (sessionInstr s) := by
  unfold sessionInstr
  cases s.session.ss <;> rfl

/-! ### The step from the outcomes of the three arms -/

/-- With `rst = 0` a step is the edge of the three arms of the cycle. -/
theorem step_of_not_rst {s : State} (hr : (input s).rst = false) :
    step s = edge s (exec (codecInstr s) s) (exec (orchInstr s) s) (exec (sessionInstr s) s) := by
  simp [step, hr]

/-- Three arms that answer next states are put together and the clock ticks. -/
theorem step_of_arms_next {s a b c : State} (hr : (input s).rst = false)
    (ha : exec (codecInstr s) s = .next a) (hb : exec (orchInstr s) s = .next b)
    (hc : exec (sessionInstr s) s = .next c) : step s = .next (tick s (mergeArms s a b c)) := by
  rw [step_of_not_rst hr, ha, hb, hc]
  rfl

/-- A refusal of the orchestrator's arm is the step's, since the codec's arm, which comes first, never refuses. -/
theorem step_of_orch_refused {s : State} {r : Refusal} (hr : (input s).rst = false)
    (hb : exec (orchInstr s) s = .refused r) : step s = .refused r := by
  obtain ⟨a, ha⟩ := Laws.codec_arm_next s
  rw [step_of_not_rst hr, ha, hb]
  rfl

/-- Settles O44: the decoder reads exactly the arms that the step selects, so the step is the edge of their
outcomes. -/
theorem stepRunsDecodedArms : Obligations.StepRunsDecodedArms := by
  intro s i j k hr hi hj hk
  obtain rfl : codecInstr s = i := Except.ok.inj ((decode_codecCode s).symm.trans hi)
  obtain rfl : orchInstr s = j := Except.ok.inj ((decode_orchCode s).symm.trans hj)
  obtain rfl : sessionInstr s = k := Except.ok.inj ((decode_sessionCode s).symm.trans hk)
  exact ⟨fun a b c ha hb hc => step_of_arms_next hr ha hb hc, fun r hb => step_of_orch_refused hr hb⟩

end Sys2Proof.Proofs
end

section
/-! The outcome of RESET (`10_state.md` R56) and the output ports a step puts on record (`10_state.md` R21, R22, R50 to
R54), each derived signal said once in terms of the registers. -/

namespace Sys2Proof.Proofs

open Sys2Proof.Machine

/-! ### RESET -/

/-- The arm of RESET is the reset state of the configuration, with the model's own fields kept (log 3, 4). -/
theorem exec_reset (s : State) :
    exec .reset s = .next { State.resetOf s.cfg with inputs := s.inputs, cycle := s.cycle, seen := s.seen } := rfl

/-- Settles O8: the blocks of the reset state are the literals of R56. -/
theorem resetPinLoadsResetValues : Obligations.ResetPinLoadsResetValues := by
  intro s
  rw [exec_reset]
  simp only [State.resetOf, Codec.reset, Orch.reset, Session.reset]

/-! ### The port `id_raw` (`10_state.md` R21, R52) -/

/-- Bits put side by side are digits: the upper ones weigh `2 ^ w`. -/
theorem toNat_append_eq_mul_add {v w : Nat} (x : BitVec v) (y : BitVec w) :
    (x ++ y).toNat = x.toNat * 2 ^ w + y.toNat := by
  rw [BitVec.toNat_append, ← Nat.shiftLeft_add_eq_or_of_lt y.isLt, Nat.shiftLeft_eq]

/-- The first byte of `ID_RAW` is the uppermost. -/
theorem idRawPort_toNat (s : State) : (idRawPort s).toNat =
    s.session.idRaw[0].toNat * 65536 + s.session.idRaw[1].toNat * 256 + s.session.idRaw[2].toNat := by
  rw [idRawPort, toNat_append_eq_mul_add, toNat_append_eq_mul_add]
  omega

/-- Some byte of `ID_RAW` is not 0 exactly when the 24 bits are not. -/
theorem idNonzero_iff (s : State) : idNonzero s = true ↔ idRawPort s ≠ 0#24 := by
  simp only [idNonzero, decide_eq_true_eq, ne_eq, ← BitVec.toNat_inj, idRawPort_toNat, BitVec.toNat_ofNat]
  omega

/-! ### The port `drive_low` (`10_state.md` R54, `40_codec.md` R122) -/

/-- The codec asserts the line in STOP and in the low part of a transmitted slot, in no other state. -/
theorem driveLow_iff (s : State) : driveLow s = true ↔
    s.codec.cs = .cStop ∨ (s.codec.cs = .cTxBit ∧ s.codec.ph < tLow s.cfg (s.codec.osr.getLsbD 31)) := by
  cases h : s.codec.cs <;> simp [driveLow, h]

/-! ### The record of the ports -/

/-- Whichever edge a step takes, the ports on record are those of the state of the cycle (log 4). -/
theorem step_next_seen {s t : State} (h : step s = .next t) : t.seen = outputs s := by
  obtain ⟨-, rfl⟩ | ⟨-, a, b, c, -, -, -, rfl⟩ := Laws.step_next_cases h
  · exact Laws.tick_seen s _
  · exact Laws.tick_seen s _

/-- Settles O48: the record is `outputs` of the state of the cycle, and each port has its rule. -/
theorem outputsOfTheCycle : Obligations.OutputsOfTheCycle := by
  intro s t h
  rw [step_next_seen h]
  exact ⟨Laws.cmdReady_iff s, idRawPort_toNat s, idNonzero_iff s, rfl, rfl, driveLow_iff s⟩

end Sys2Proof.Proofs
end

section
/-! The two queues at an edge (`20_memory.md` R62 to R66): what each arm of a cycle pops and pushes, and what the edge
makes of it. -/

namespace Sys2Proof.Proofs

open Sys2Proof.Machine

/-! ### What is left of each queue by its consumer, and what its producer pushes -/

/-- TXQ without the word the codec takes, if one is there: it takes one waiting, or in the last cycle of a byte
(`40_codec.md` R124, R125, R128). -/
def leftTx (s : State) : List TxWord :=
  if s.codec.cs = .cIdle ∨ s.codec.cs = .cTxWait ∨
      (s.codec.cs = .cTxBit ∧ s.codec.ph = s.cfg.tSlot - 1 ∧ s.codec.bitc = 7#3)
    then s.txq.tail else s.txq

/-- RXQ without the byte the orchestrator takes, if one is there: it takes one collecting, before the timeout
(`41_orchestrator.md` R167, R168). -/
def leftRx (s : State) : List Byte :=
  if s.orch.os = .oCollect ∧ s.orch.tmr ≠ 600 * s.cfg.nUs then s.rxq.tail else s.rxq

/-- The word the orchestrator has to push (`41_orchestrator.md` R165, R166). -/
def offeredTx (o : Orch) : List TxWord :=
  match o.os with
  | .oCtrl => [controlWord (lenm1 o.rslen)]
  | .oReq => [dataWord (requestByte o)]
  | .oIdle | .oReset | .oCollect | .oSpace | .oDone => []

/-- The word the orchestrator pushes into TXQ: the one it offers, if there is room at the start of the cycle
(`20_memory.md` R62). -/
def pushedTx (s : State) : List TxWord := if s.txq.length < s.cfg.qdTx then offeredTx s.orch else []

/-- The byte the codec pushes into RXQ, if there is room at the start of the cycle (`40_codec.md` R134,
`20_memory.md` R62). -/
def pushedRx (s : State) : List Byte :=
  if s.codec.cs = .cRxPush ∧ s.rxq.length < s.cfg.qdRx then [s.codec.isr] else []

theorem pushedTx_oCtrl {s : State} (h : s.orch.os = .oCtrl) (hq : s.txq.length < s.cfg.qdTx) :
    pushedTx s = [controlWord (lenm1 s.orch.rslen)] := by
  simp [pushedTx, offeredTx, h, hq]

theorem pushedTx_oReq {s : State} (h : s.orch.os = .oReq) (hq : s.txq.length < s.cfg.qdTx) :
    pushedTx s = [dataWord (requestByte s.orch)] := by
  simp [pushedTx, offeredTx, h, hq]

/-- At most one word a cycle, from `O_CTRL` and `O_REQ` only. -/
theorem pushedTx_length (s : State) : (pushedTx s).length =
    if (s.orch.os = .oCtrl ∨ s.orch.os = .oReq) ∧ s.txq.length < s.cfg.qdTx then 1 else 0 := by
  by_cases hq : s.txq.length < s.cfg.qdTx
  · cases h : s.orch.os <;> simp [pushedTx, offeredTx, h, hq]
  · simp [pushedTx, hq]

/-! ### The codec's arms -/

/-- Waiting, the codec takes a control word if there is one. -/
theorem cIdle_queues {s a : State} (h : exec .armCIdle s = .next a) : a.txq = s.txq.tail ∧ a.rxq = s.rxq := by
  cases hq : s.txq <;> simp only [exec, execArmCIdle, hq] at h <;> cases h <;> simp [hq]

/-- Waiting, the codec takes a request word if there is one. -/
theorem cTxWait_queues {s a : State} (h : exec .armCTxWait s = .next a) : a.txq = s.txq.tail ∧ a.rxq = s.rxq := by
  cases hq : s.txq <;> simp only [exec, execArmCTxWait, hq] at h <;> cases h <;> simp [hq]

/-- At the end of a byte the codec takes the next word if there is one. -/
theorem byteBoundary_queues (s : State) : (byteBoundary s).txq = s.txq.tail ∧ (byteBoundary s).rxq = s.rxq := by
  obtain ⟨hq, h⟩ | ⟨w, q, -, h⟩ := Laws.byteBoundary_cases s
  · simp [h, hq]
  · simp [h]

/-- Sending, the codec takes a word in the last cycle of a byte and in no other. -/
theorem cTxBit_queues {s a : State} (hp : s.codec.ph < s.cfg.tSlot) (h : exec .armCTxBit s = .next a) :
    a.txq = (if s.codec.ph = s.cfg.tSlot - 1 ∧ s.codec.bitc = 7#3 then s.txq.tail else s.txq) ∧ a.rxq = s.rxq := by
  simp only [exec, execArmCTxBit] at h
  split_ifs at h with hph hb <;> cases h
  · simp [hph.ne]
  · have hb' : s.codec.bitc ≠ 7#3 := fun e => absurd hb (by simp [e])
    simp [hb']
  · have hph' : s.codec.ph = s.cfg.tSlot - 1 := by omega
    have hb' : s.codec.bitc = 7#3 := by bv_omega
    simpa [hph', hb'] using byteBoundary_queues s

/-- With room in RXQ the codec hands its byte over, and no word is taken. -/
theorem cRxPush_queues {s a : State} (h : exec .armCRxPush s = .next a) :
    a.txq = s.txq ∧ a.rxq = s.rxq ++ (if s.rxq.length < s.cfg.qdRx then [s.codec.isr] else []) := by
  simp only [exec, execArmCRxPush, Laws.rxNotFull_iff] at h
  split_ifs at h with hq hn <;> cases h <;> simp [hq]

/-- STOP and the receiver's arms before the push touch neither queue. -/
theorem codec_listening_queues {s a : State} {i : Instr}
    (hi : i = .armCStop ∨ i = .armCRxHigh ∨ i = .armCRxArm ∨ i = .armCRxSettle) (h : exec i s = .next a) :
    a.txq = s.txq ∧ a.rxq = s.rxq := by
  obtain rfl | rfl | rfl | rfl := hi
  · simp only [exec, execArmCStop] at h
    split_ifs at h <;> cases h <;> exact ⟨rfl, rfl⟩
  · cases h; split_ifs <;> exact ⟨rfl, rfl⟩
  · cases h; split_ifs <;> exact ⟨rfl, rfl⟩
  · simp only [exec, execArmCRxSettle] at h
    split_ifs at h <;> cases h
    · exact ⟨rfl, rfl⟩
    · obtain ⟨-, e⟩ | ⟨-, e⟩ := Laws.takeSample_cases (lineIn s) s <;> simp [e]

/-- The codec's end of each queue, in any cycle without restart. -/
theorem codec_arm_queues {s a : State} (hr : s.orch.os ≠ .oReset) (hp : s.PhaseOk)
    (h : exec (codecInstr s) s = .next a) : a.txq = leftTx s ∧ a.rxq = s.rxq ++ pushedRx s := by
  have hr' : ¬ restart s = true := by simpa using hr
  rw [codecInstr, if_neg hr'] at h
  cases hc : s.codec.cs <;> rw [hc] at h
  case cIdle => simpa [leftTx, pushedRx, hc] using cIdle_queues h
  case cTxWait => simpa [leftTx, pushedRx, hc] using cTxWait_queues h
  case cTxBit => simpa [leftTx, pushedRx, hc] using cTxBit_queues (hp.1 hc) h
  case cRxPush => simpa [leftTx, pushedRx, hc] using cRxPush_queues h
  all_goals simpa [leftTx, pushedRx, hc] using codec_listening_queues (by simp) h

/-! ### The orchestrator's arms -/

/-- The start of a transfer touches neither queue. -/
theorem oIdle_queues {s b : State} (h : exec .armOIdle s = .next b) : b.txq = s.txq ∧ b.rxq = s.rxq := by
  simp only [exec, execArmOIdle] at h
  split_ifs at h
  · obtain ⟨-, e⟩ | ⟨-, e⟩ := Laws.startTransfer_cases s.session.sReq s.session.sRqlen s.session.sRslen s <;>
      rw [e] at h <;> cases h
    exact ⟨rfl, rfl⟩
  · cases h; exact ⟨rfl, rfl⟩

/-- With room in TXQ the control word is pushed. -/
theorem oCtrl_queues {s b : State} (h : exec .armOCtrl s = .next b) :
    b.txq = s.txq ++ (if s.txq.length < s.cfg.qdTx then [controlWord (lenm1 s.orch.rslen)] else []) ∧
    b.rxq = s.rxq := by
  simp only [exec, execArmOCtrl, Laws.txNotFull_iff] at h
  split_ifs at h with hq <;> cases h <;> simp [hq]

/-- With room in TXQ a request byte is pushed. -/
theorem oReq_queues {s b : State} (h : exec .armOReq s = .next b) :
    b.txq = s.txq ++ (if s.txq.length < s.cfg.qdTx then [dataWord (requestByte s.orch)] else []) ∧
    b.rxq = s.rxq := by
  simp only [exec, execArmOReq, Laws.txNotFull_iff] at h
  split_ifs at h with hq hi <;> cases h <;> simp [hq]

/-- Before the timeout a response byte is taken if there is one; at the timeout none is. -/
theorem oCollect_queues {s b : State} (h : exec .armOCollect s = .next b) :
    b.txq = s.txq ∧ b.rxq = if s.orch.tmr ≠ 600 * s.cfg.nUs then s.rxq.tail else s.rxq := by
  simp only [exec, execArmOCollect] at h
  split at h
  case isTrue ht => cases h; simp [takeTimeout, ht, timeoutCycles]
  case isFalse ht =>
    rw [timeoutCycles] at ht
    cases hq : s.rxq with
    | nil => rw [hq] at h; cases h; simp [hq]
    | cons y q =>
      rw [hq] at h; cases h
      obtain ⟨-, e⟩ | ⟨-, e⟩ := Laws.collectByte_cases y s <;> simp [e, ht, hq]

/-- The spacing touches neither queue. -/
theorem oSpace_queues {s b : State} (h : exec .armOSpace s = .next b) : b.txq = s.txq ∧ b.rxq = s.rxq := by
  simp only [exec, execArmOSpace] at h
  split_ifs at h <;> cases h <;> exact ⟨rfl, rfl⟩

/-- The orchestrator's end of each queue, in any cycle without restart. -/
theorem orch_arm_queues {s b : State} (hr : s.orch.os ≠ .oReset) (h : exec (orchInstr s) s = .next b) :
    b.txq = s.txq ++ pushedTx s ∧ b.rxq = leftRx s := by
  rw [orchInstr] at h
  cases ho : s.orch.os <;> rw [ho] at h
  case oIdle => simpa [leftRx, pushedTx, offeredTx, ho] using oIdle_queues h
  case oReset => exact absurd ho hr
  case oCtrl => simpa [leftRx, pushedTx, offeredTx, ho] using oCtrl_queues h
  case oReq => simpa [leftRx, pushedTx, offeredTx, ho] using oReq_queues h
  case oCollect => simpa [leftRx, pushedTx, offeredTx, ho] using oCollect_queues h
  case oSpace => simpa [leftRx, pushedTx, offeredTx, ho] using oSpace_queues h
  case oDone => cases h; simp [leftRx, pushedTx, offeredTx, ho]

/-! ### The edge -/

/-- What the producer appended stands behind what the consumer left (`20_memory.md` R64). -/
theorem mergeQueue_append {α : Type} (q popped w : List α) : mergeQueue q popped (q ++ w) = popped ++ w := by
  simp [mergeQueue]

/-- Under restart the codec's arm and the orchestrator's leave both queues empty (`20_memory.md` R65). -/
theorem step_queues_of_restart {s t : State} (hrst : (input s).rst = false) (h : step s = .next t)
    (hr : s.orch.os = .oReset) : t.txq = [] ∧ t.rxq = [] := by
  obtain ⟨hrst', -⟩ | ⟨-, a, b, c, ha, hb, -, rfl⟩ := Laws.step_next_cases h
  · simp [hrst] at hrst'
  · have hr' : restart s = true := by simpa using hr
    rw [codecInstr, if_pos hr'] at ha
    rw [orchInstr, hr] at hb
    cases ha; cases hb
    simp

/-- Without restart each queue is as its consumer's arm leaves it, followed by what its producer's arm pushes. -/
theorem step_queues {s t : State} (hrst : (input s).rst = false) (hp : s.PhaseOk) (h : step s = .next t)
    (hr : s.orch.os ≠ .oReset) :
    t.txq = leftTx s ++ pushedTx s ∧
    t.rxq = leftRx s ++ pushedRx s := by
  obtain ⟨hrst', -⟩ | ⟨-, a, b, c, ha, hb, -, rfl⟩ := Laws.step_next_cases h
  · simp [hrst] at hrst'
  · obtain ⟨hatx, harx⟩ := codec_arm_queues hr hp ha
    obtain ⟨hbtx, hbrx⟩ := orch_arm_queues hr hb
    simp only [Laws.tick_txq, Laws.tick_rxq, Laws.mergeArms_txq, Laws.mergeArms_rxq, hatx, harx, hbtx, hbrx,
      mergeQueue_append, and_self]

/-- Settles O47: restart flushes; otherwise `pushedTx` and `pushedRx` are what the edge appends. -/
theorem queuesAtTheEdge : Obligations.QueuesAtTheEdge := by
  intro s t hrst hp h
  refine ⟨step_queues_of_restart hrst h, fun hr => ?_⟩
  obtain ⟨htx, hrx⟩ := step_queues hrst hp h hr
  refine ⟨pushedTx s, pushedRx s, htx, pushedTx_oCtrl, fun ho hq y hy => ?_, pushedTx_length s, hrx, rfl⟩
  have hy' : requestByte s.orch = y := by simp [requestByte, hy]
  rw [pushedTx_oReq ho hq, hy', dataWord]

end Sys2Proof.Proofs
end

section
/-! The session layer's data (`20_memory.md` R70): what an accepted command and each arm of `ss` write, and so when `RAW`,
`ID_RAW` and `RUMBLE` change. -/

namespace Sys2Proof.Proofs

open Sys2Proof.Machine

/-! ### An accepted command -/

/-- The value of `cmd_op` for each command (`30_encoding.md` R105). -/
theorem hostOp_cases (op : BitVec 2) :
    (op = 0#2 ∧ hostOp op = .identify) ∨ (op = 1#2 ∧ hostOp op = .poll) ∨ (op = 2#2 ∧ hostOp op = .setRumble) ∨
      (op = 3#2 ∧ hostOp op = .pollr) := by
  revert op
  decide

/-- What a command keeps when it is accepted it keeps in every state. -/
theorem whenReady_keeps {α : Type} (g : State → α) {f : State → State} {s : State} (hf : g (f s) = g s) :
    g (whenReady f s) = g s := by
  by_cases h : s.session.ss = .sIdle
  · rw [Laws.whenReady_of_ready f s h, hf]
  · rw [Laws.whenReady_of_busy f s h]

/-- No command writes `RAW` or `ID_RAW`. -/
theorem acceptCommand_raw_idRaw (op : BitVec 2) (arg : Bool) (s : State) :
    (acceptCommand op arg s).session.raw = s.session.raw ∧
    (acceptCommand op arg s).session.idRaw = s.session.idRaw := by
  unfold acceptCommand
  cases hostOp op <;> exact ⟨whenReady_keeps (·.session.raw) rfl, whenReady_keeps (·.session.idRaw) rfl⟩

/-- SET_RUMBLE and POLLR, and no other command, write `RUMBLE` (`42_session.md` R193 to R196). -/
theorem acceptCommand_rumble {s : State} (h : s.session.ss = .sIdle) (op : BitVec 2) (arg : Bool) :
    (acceptCommand op arg s).session.rumble = if op = 2#2 ∨ op = 3#2 then arg else s.session.rumble := by
  obtain ⟨rfl, ho⟩ | ⟨rfl, ho⟩ | ⟨rfl, ho⟩ | ⟨rfl, ho⟩ := hostOp_cases op <;>
    simp only [acceptCommand, ho, Laws.whenReady_of_ready _ s h] <;> rfl

/-! ### The session layer's arms -/

/-- What the session layer's arm can do: nothing, an accepted command, the end of the start, or the result of a
transfer stored by `kind` (`42_session.md` R191, R192, R197 to R199). -/
theorem session_arm_cases {s c : State} (h : exec (sessionInstr s) s = .next c) :
    (c = s ∧ ¬ (s.session.ss = .sIdle ∧ (input s).cmdValid = true)) ∨
    (s.session.ss = .sIdle ∧ (input s).cmdValid = true ∧ c = acceptCommand (input s).cmdOp (input s).cmdArg s) ∨
    (s.session.ss = .sStart ∧ c = s.setSession { s.session with ss := .sWait }) ∨
    (s.session.ss = .sWait ∧ s.orch.os = .oDone ∧ s.session.kind = .kId ∧
      c = s.setSession { s.session with idRaw := respId s.orch.resp, ss := .sIdle }) ∨
    (s.session.ss = .sWait ∧ s.orch.os = .oDone ∧ s.session.kind = .kPoll ∧
      c = s.setSession { s.session with raw := respRaw s.orch.resp, ss := .sIdle }) := by
  rw [sessionInstr] at h
  cases hs : s.session.ss <;> rw [hs] at h
  case sIdle =>
    cases hv : (input s).cmdValid <;> simp only [exec, execArmSIdle, hv] at h <;> cases h
    · exact .inl ⟨rfl, by simp⟩
    · exact .inr (.inl ⟨rfl, rfl, rfl⟩)
  case sStart =>
    cases h
    exact .inr (.inr (.inl ⟨rfl, rfl⟩))
  case sWait =>
    by_cases hd : s.orch.os = .oDone
    · cases hk : s.session.kind <;> simp only [exec, execArmSWait, Laws.xferDone_iff, hd, hk] at h <;> cases h <;>
        simp [hd, hk]
    · simp only [exec, execArmSWait, Laws.xferDone_iff, hd] at h
      cases h
      exact .inl ⟨rfl, by simp⟩

/-! ### The edge -/

/-- The session registers after an edge are those the session layer's arm left (`20_memory.md` R75). -/
theorem step_session {s t : State} (hrst : (input s).rst = false) (h : step s = .next t) :
    ∃ c, exec (sessionInstr s) s = .next c ∧ t.session = c.session := by
  obtain ⟨hrst', -⟩ | ⟨-, a, b, c, -, -, hc, rfl⟩ := Laws.step_next_cases h
  · simp [hrst] at hrst'
  · exact ⟨c, hc, rfl⟩

/-- Settles O49: of the five things the session layer's arm can do, one writes `RAW`, one `ID_RAW`, and only an accepted
command `RUMBLE`. -/
theorem sessionDataChangesOnlyByRule : Obligations.SessionDataChangesOnlyByRule := by
  intro s t hrst h
  obtain ⟨c, hc, ht⟩ := step_session hrst h
  rw [ht]
  obtain ⟨rfl, hn⟩ | ⟨hs, hv, rfl⟩ | ⟨hs, rfl⟩ | ⟨hs, hd, hk, rfl⟩ | ⟨hs, hd, hk, rfl⟩ := session_arm_cases hc
  · exact ⟨fun _ => rfl, fun _ => rfl, (if_neg fun ⟨hs, hv, _⟩ => hn ⟨hs, hv⟩).symm⟩
  · obtain ⟨hraw, hid⟩ := acceptCommand_raw_idRaw (input s).cmdOp (input s).cmdArg s
    simp only [hraw, hid, acceptCommand_rumble hs, hs, hv, true_and, implies_true]
  · simp [hs]
  · simp [hs, hd, hk]
  · simp [hs, hd, hk]

end Sys2Proof.Proofs
end

section
/-! The record of the outputs is the model's own (log 4): no arm of a cycle reads it (`20_memory.md` R71). -/

namespace Sys2Proof.Proofs

open Sys2Proof.Machine

/-- An outcome with its next state, if there is one, replaced. -/
def mapNext (f : State → State) : Host.Outcome State Fault Refusal → Host.Outcome State Fault Refusal
  | .next a => .next (f a)
  | .fault r => .fault r
  | .refused r => .refused r

/-! ### The shared operations pass the record on

A condition that does not read the record is the same on both sides, so the replacement moves into the branches of an
`if` by `apply_ite`. -/

theorem byteBoundary_setSeen (s : State) (o : Outputs) :
    byteBoundary (s.setSeen o) = (byteBoundary s).setSeen o := by
  simp only [byteBoundary, Laws.setSeen_txq]
  split <;> rfl

theorem takeSample_setSeen (b : Bool) (s : State) (o : Outputs) :
    takeSample b (s.setSeen o) = (takeSample b s).setSeen o := by
  simp only [takeSample, apply_ite (State.setSeen · o)]
  rfl

theorem collectByte_setSeen (b : Byte) (s : State) (o : Outputs) :
    collectByte b (s.setSeen o) = (collectByte b s).setSeen o := by
  simp only [collectByte, apply_ite (State.setSeen · o)]
  rfl

theorem whenReady_setSeen {f : State → State} {o : Outputs} (hf : ∀ s, f (s.setSeen o) = (f s).setSeen o) (s : State) :
    whenReady f (s.setSeen o) = (whenReady f s).setSeen o := by
  by_cases h : s.session.ss = .sIdle
  · rw [Laws.whenReady_of_ready f s h, Laws.whenReady_of_ready f (s.setSeen o) h, hf]
  · rw [Laws.whenReady_of_busy f s h, Laws.whenReady_of_busy f (s.setSeen o) h]

theorem acceptCommand_setSeen (op : BitVec 2) (arg : Bool) (s : State) (o : Outputs) :
    acceptCommand op arg (s.setSeen o) = (acceptCommand op arg s).setSeen o := by
  unfold acceptCommand
  cases hostOp op <;> exact whenReady_setSeen (fun _ => rfl) s

/-! ### Each block's arm runs alike under any record and passes it on -/

theorem codec_arm_setSeen (s : State) (o : Outputs) :
    exec (codecInstr s) (s.setSeen o) = mapNext (·.setSeen o) (exec (codecInstr s) s) := by
  unfold codecInstr
  split
  · rfl
  · cases s.codec.cs with
    | cIdle => simp only [exec, execArmCIdle, Laws.setSeen_txq]; split <;> rfl
    | cTxWait => simp only [exec, execArmCTxWait, Laws.setSeen_txq]; split <;> rfl
    | cTxBit =>
      simp only [exec, execArmCTxBit, byteBoundary_setSeen, apply_ite (mapNext _)]
      rfl
    | cStop =>
      simp only [exec, execArmCStop, apply_ite (mapNext _)]
      rfl
    | cRxHigh =>
      simp only [exec, execArmCRxHigh, mapNext, apply_ite (State.setSeen · o)]
      rfl
    | cRxArm =>
      simp only [exec, execArmCRxArm, mapNext, apply_ite (State.setSeen · o)]
      rfl
    | cRxSettle =>
      simp only [exec, execArmCRxSettle, takeSample_setSeen, apply_ite (mapNext _)]
      rfl
    | cRxPush =>
      simp only [exec, execArmCRxPush, apply_ite (mapNext _)]
      rfl

theorem orch_arm_setSeen (s : State) (o : Outputs) :
    exec (orchInstr s) (s.setSeen o) = mapNext (·.setSeen o) (exec (orchInstr s) s) := by
  unfold orchInstr
  cases s.orch.os with
  | oIdle =>
    simp only [exec, execArmOIdle, startTransfer, apply_ite (mapNext _)]
    rfl
  | oReset => rfl
  | oCtrl =>
    simp only [exec, execArmOCtrl, apply_ite (mapNext _)]
    rfl
  | oReq =>
    simp only [exec, execArmOReq, apply_ite (mapNext _)]
    rfl
  | oCollect =>
    cases hq : s.rxq <;>
      simp only [exec, execArmOCollect, collectByte_setSeen, Laws.setSeen_rxq, hq, apply_ite (mapNext _)] <;> rfl
  | oSpace =>
    simp only [exec, execArmOSpace, apply_ite (mapNext _)]
    rfl
  | oDone => rfl

theorem session_arm_setSeen (s : State) (o : Outputs) :
    exec (sessionInstr s) (s.setSeen o) = mapNext (·.setSeen o) (exec (sessionInstr s) s) := by
  unfold sessionInstr
  cases s.session.ss with
  | sIdle =>
    simp only [exec, execArmSIdle, acceptCommand_setSeen, mapNext, apply_ite (State.setSeen · o)]
    rfl
  | sStart => rfl
  | sWait =>
    simp only [exec, execArmSWait, apply_ite (mapNext _), Laws.setSeen_session]
    cases s.session.kind <;> rfl

/-! ### The edge -/

/-- The edge puts the cycle's own outputs on record, whatever records stand in its operands. -/
theorem edge_setSeen (s : State) (o : Outputs) (x y z : Host.Outcome State Fault Refusal) :
    edge (s.setSeen o) (mapNext (·.setSeen o) x) (mapNext (·.setSeen o) y) (mapNext (·.setSeen o) z) =
      edge s x y z := by
  cases x with
  | next a => cases y with
    | next b => cases z <;> rfl
    | fault r => rfl
    | refused r => rfl
  | fault r => rfl
  | refused r => rfl

/-- Settles O53: the selection and the inputs do not read the record, the arms pass it on, and the edge drops it. -/
theorem recordOfOutputsIsNeverRead : Obligations.RecordOfOutputsIsNeverRead := by
  intro s o
  change step (s.setSeen o) = step s
  have hi : input (s.setSeen o) = input s := rfl
  cases hr : (input s).rst with
  | false =>
    rw [step_of_not_rst (hi ▸ hr), step_of_not_rst hr, ← edge_setSeen s o, ← codec_arm_setSeen, ← orch_arm_setSeen,
      ← session_arm_setSeen]
    rfl
  | true =>
    unfold step
    rw [hi, if_pos hr, if_pos hr]
    rfl

end Sys2Proof.Proofs
end

section
/-! The line symbols and the request frames as operations (`30_encoding.md` R91 to R95, R98, R99): one equation for each
thing a symbol can be to the codec (log 9). -/

namespace Sys2Proof.Proofs

open Sys2Proof.Machine

/-! ### Frames -/

/-- Settles O15: the two frames are built from the literals of the wire. -/
theorem requestFramesAreBuilt : Obligations.RequestFramesAreBuilt := by
  intro s r
  refine ⟨rfl, ?_⟩
  cases r <;> rfl

/-! ### Bits -/

/-- A 0 shifted in from below (`40_codec.md` R133). -/
theorem shiftIn_false (isr : Byte) : shiftIn isr false = isr <<< 1 := by
  rw [shiftIn, BitVec.shiftLeft_eq_concat_of_lt (by decide)]
  rfl

/-- A 1 shifted in from below (`40_codec.md` R133). -/
theorem shiftIn_true (isr : Byte) : shiftIn isr true = isr <<< 1 ||| 1#8 := by
  have h : shiftIn isr true = shiftIn isr false ||| (0#7 ++ 1#1) := by
    rw [shiftIn, shiftIn, BitVec.or_append, BitVec.or_zero]
    rfl
  rwa [shiftIn_false] at h

/-- In a transmitted slot the symbol asserts the line in its low part (`40_codec.md` R122). -/
theorem bitSymbol_sent {s : State} (hc : s.codec.cs = .cTxBit) (b : Bool) :
    bitSymbol b s = showDrive (decide (s.codec.ph < tLow s.cfg b)) s := by
  simp [bitSymbol, hc]

/-- In the sampling cycle the symbol is the sample (`30_encoding.md` R94). -/
theorem bitSymbol_sampled {s : State} (hc : s.codec.cs = .cRxSettle) (hp : s.codec.ph = s.cfg.tSettle - 1) (b : Bool) :
    bitSymbol b s = takeSample b s := by
  simp [bitSymbol, hc, hp]

/-- In every other cycle there is no bit symbol. -/
theorem bitSymbol_none {s : State} (ht : s.codec.cs ≠ .cTxBit)
    (hr : s.codec.cs = .cRxSettle → s.codec.ph ≠ s.cfg.tSettle - 1) (b : Bool) : bitSymbol b s = s := by
  unfold bitSymbol
  cases hc : s.codec.cs
  case cTxBit => exact absurd hc ht
  case cRxSettle => exact if_neg (hr hc)
  all_goals rfl

/-- A sample that is not the eighth of its byte. -/
theorem takeSample_of_ne {s : State} (h : s.codec.rbit ≠ 7#3) (b : Bool) : takeSample b s = s.setCodec
    { s.codec with isr := shiftIn s.codec.isr b, ph := 0, rbit := s.codec.rbit + 1#3, cs := .cRxHigh } := by
  obtain ⟨h7, -⟩ | ⟨-, e⟩ := Laws.takeSample_cases b s
  · exact absurd h7 h
  · exact e

/-- The eighth sample of a byte. -/
theorem takeSample_of_eq {s : State} (h : s.codec.rbit = 7#3) (b : Bool) : takeSample b s = s.setCodec
    { s.codec with isr := shiftIn s.codec.isr b, ph := 0, rbit := 0#3, cs := .cRxPush } := by
  obtain ⟨-, e⟩ | ⟨h7, -⟩ := Laws.takeSample_cases b s
  · exact e
  · exact absurd h h7

theorem exec_bit0 (s : State) : exec .bit0 s = .next (bitSymbol false s) := rfl
theorem exec_bit1 (s : State) : exec .bit1 s = .next (bitSymbol true s) := rfl

/-- Settles O23: a bit symbol is sent, sampled, or nothing to the codec. -/
theorem bitSymbolsSentAndTaken : Obligations.BitSymbolsSentAndTaken := by
  intro s
  simp only [exec_bit0, exec_bit1]
  refine ⟨fun hc => ?_, fun hc hp hb => ?_, fun hc hp hb => ?_, fun ht hr => ?_⟩
  · rw [bitSymbol_sent hc, bitSymbol_sent hc]
    exact ⟨rfl, rfl⟩
  · rw [bitSymbol_sampled hc hp, bitSymbol_sampled hc hp, takeSample_of_ne hb, takeSample_of_ne hb, shiftIn_false,
      shiftIn_true]
    exact ⟨rfl, rfl⟩
  · rw [bitSymbol_sampled hc hp, bitSymbol_sampled hc hp, takeSample_of_eq hb, takeSample_of_eq hb, shiftIn_false,
      shiftIn_true]
    exact ⟨rfl, rfl⟩
  · rw [bitSymbol_none ht hr, bitSymbol_none ht hr]
    exact ⟨rfl, rfl⟩

/-! ### STOP -/

/-- Settles O24: the symbol is sent in `C_STOP`, and is never received (R95). -/
theorem stopSymbolSent : Obligations.StopSymbolSent := by
  intro s
  constructor <;> intro h
  · exact congrArg Host.Outcome.next (if_pos h)
  · exact congrArg Host.Outcome.next (if_neg h)

end Sys2Proof.Proofs
end

section
/-! The levels of a slot and of a request (`30_encoding.md` R91 to R94, R110; `40_codec.md` R138), entry by entry. -/

namespace Sys2Proof.Proofs

open Sys2Proof.Machine

/-! ### Lists made of blocks of one length -/

theorem length_flatMap_of_length {α β : Type} {f : α → List β} {n : Nat} (hf : ∀ a, (f a).length = n) (l : List α) :
    (l.flatMap f).length = l.length * n := by
  simp [List.length_flatMap, hf]

/-- Entry `m` of block `i`. -/
theorem getElem?_flatMap_of_length {α β : Type} {f : α → List β} {n : Nat} (hf : ∀ a, (f a).length = n) {l : List α}
    {i m : Nat} {a : α} (ha : l[i]? = some a) (hm : m < n) : (l.flatMap f)[i * n + m]? = (f a)[m]? := by
  induction l generalizing i with
  | nil => simp at ha
  | cons x l ih =>
    cases i with
    | zero =>
      obtain rfl : x = a := by simpa using ha
      rw [List.flatMap_cons, Nat.zero_mul, Nat.zero_add, List.getElem?_append_left (by rw [hf]; exact hm)]
    | succ i =>
      have hi : (i + 1) * n + m = (f x).length + (i * n + m) := by rw [hf]; ring
      rw [List.flatMap_cons, hi, List.getElem?_append_right (Nat.le_add_right _ _), Nat.add_sub_cancel_left]
      exact ih ha

/-! ### One slot -/

/-- The low part is inside the slot (`00_scope.md` R9). -/
theorem tLow_le_tSlot (c : Config) (b : Bool) : tLow c b ≤ c.tSlot := by
  obtain ⟨-, -, -, -, -, hss, hsl, hl, -⟩ := c.legal
  cases b <;> simp only [tLow, if_true, if_false, Bool.false_eq_true] <;> omega

theorem length_slotLevels (c : Config) (b : Bool) : (slotLevels c b).length = c.tSlot := by
  have := tLow_le_tSlot c b
  simp only [slotLevels, List.length_append, List.length_replicate]
  omega

/-- The line is low before `t_low(b)` and high from it on (R91). -/
theorem getElem?_slotLevels {c : Config} {m : Nat} (hm : m < c.tSlot) (b : Bool) :
    (slotLevels c b)[m]? = some (decide (tLow c b ≤ m)) := by
  by_cases h : m < tLow c b
  · simp [slotLevels, List.getElem?_append, h]
  · have h' : m - tLow c b < c.tSlot - tLow c b := by omega
    simp [slotLevels, List.getElem?_append, h, h', Nat.le_of_not_lt h]

/-- The sample is taken when the short pulse has ended and the long one has not (R94). -/
theorem slotLevels_tSettle (c : Config) (b : Bool) : (slotLevels c b)[c.tSettle]? = some b := by
  obtain ⟨-, -, -, -, -, hss, hsl, hl, -⟩ := c.legal
  rw [getElem?_slotLevels (hsl.trans hl)]
  cases b
  · simpa [tLow] using hsl
  · simpa [tLow] using hss.le

/-- The sample tells the two shapes apart. -/
theorem slotLevels_false_ne_true (c : Config) : slotLevels c false ≠ slotLevels c true := by
  intro h
  have hf := slotLevels_tSettle c false
  rw [h, slotLevels_tSettle c true] at hf
  simp at hf

/-! ### One byte -/

/-- The levels of one byte: its eight slots. -/
def byteLevels (c : Config) (y : Byte) : List Bool := (bitsMsbFirst y).flatMap (slotLevels c)

/-- Bit 7 goes first (`20_memory.md` R68). -/
theorem getElem?_bitsMsbFirst (y : Byte) {j : Nat} (hj : j < 8) : (bitsMsbFirst y)[j]? = some (y.getLsbD (7 - j)) := by
  simp [bitsMsbFirst, hj]

theorem length_byteLevels (c : Config) (y : Byte) : (byteLevels c y).length = 8 * c.tSlot := by
  rw [byteLevels, length_flatMap_of_length (length_slotLevels c)]
  simp [bitsMsbFirst]

/-- Cycle `m` of slot `j`. -/
theorem getElem?_byteLevels {c : Config} {j m : Nat} (hj : j < 8) (hm : m < c.tSlot) (y : Byte) :
    (byteLevels c y)[j * c.tSlot + m]? = some (decide (tLow c (y.getLsbD (7 - j)) ≤ m)) := by
  rw [byteLevels, getElem?_flatMap_of_length (length_slotLevels c) (getElem?_bitsMsbFirst y hj) hm,
    getElem?_slotLevels hm]

/-! ### A request -/

theorem requestLevels_eq (c : Config) (request : List Byte) :
    requestLevels c request = request.flatMap (byteLevels c) ++ stopLevels c := rfl

theorem length_requestSlots (c : Config) (request : List Byte) :
    (request.flatMap (byteLevels c)).length = 8 * request.length * c.tSlot := by
  rw [length_flatMap_of_length (length_byteLevels c)]
  ring

theorem length_requestLevels (c : Config) (request : List Byte) :
    (requestLevels c request).length = 8 * request.length * c.tSlot + c.tStopLow := by
  rw [requestLevels_eq, List.length_append, length_requestSlots, stopLevels, List.length_replicate]

/-- Cycle `m` of slot `j` of byte `i`. -/
theorem getElem?_requestLevels {c : Config} {request : List Byte} {i j m : Nat} {y : Byte} (hy : request[i]? = some y)
    (hj : j < 8) (hm : m < c.tSlot) : (requestLevels c request)[(8 * i + j) * c.tSlot + m]? =
      some (decide (tLow c (y.getLsbD (7 - j)) ≤ m)) := by
  have hjm : j * c.tSlot + m < 8 * c.tSlot :=
    calc j * c.tSlot + m < (j + 1) * c.tSlot := by rw [Nat.succ_mul]; omega
      _ ≤ 8 * c.tSlot := Nat.mul_le_mul_right _ hj
  have hi : (8 * i + j) * c.tSlot + m = i * (8 * c.tSlot) + (j * c.tSlot + m) := by ring
  have hslots : (request.flatMap (byteLevels c))[(8 * i + j) * c.tSlot + m]? =
      some (decide (tLow c (y.getLsbD (7 - j)) ≤ m)) := by
    rw [hi, getElem?_flatMap_of_length (length_byteLevels c) hy hjm, getElem?_byteLevels hj hm]
  rw [requestLevels_eq, List.getElem?_append_left (List.getElem?_eq_some_iff.mp hslots).1, hslots]

/-- STOP follows the last slot (R110). -/
theorem getElem?_requestLevels_stop {c : Config} {m : Nat} (hm : m < c.tStopLow) (request : List Byte) :
    (requestLevels c request)[8 * request.length * c.tSlot + m]? = some false := by
  rw [requestLevels_eq, ← length_requestSlots, List.getElem?_append_right (Nat.le_add_right _ _),
    Nat.add_sub_cancel_left, stopLevels, List.getElem?_replicate_of_lt hm]

/-- Settles O59: a request is a list of bytes of eight slots each, and a slot's entries follow from its low part. -/
theorem symbolShapes : Obligations.SymbolShapes := fun c =>
  ⟨fun b => ⟨length_slotLevels c b, slotLevels_tSettle c b⟩, slotLevels_false_ne_true c, fun request =>
    ⟨length_requestLevels c request, fun _ _ _ _ hy hj hm => getElem?_requestLevels hy hj hm,
      fun _ hm => getElem?_requestLevels_stop hm request⟩⟩

end Sys2Proof.Proofs
end

section
/-! Runs of several cycles: how they are put together, what every step keeps, and that no step stops while the session
layer holds operands in range (`30_encoding.md` R107 (c)). -/

namespace Sys2Proof.Proofs

open Sys2Proof.Machine

/-! ### Runs -/

theorem cycles_zero (s : State) : cycles 0 s = .next s := rfl

/-- The first cycle of a run, then the rest. -/
theorem cycles_succ (k : Nat) (s : State) : cycles (k + 1) s = andThen (step s) (cycles k) := by
  cases h : step s <;> simp only [cycles, Host.Core.run, andThen, show Sys2Proof.core.step s = _ from h] <;> rfl

/-- A run continued from where its first part ends. -/
theorem cycles_add_of_next {j : Nat} {s t : State} (h : cycles j s = .next t) (k : Nat) :
    cycles (j + k) s = cycles k t := by
  induction j generalizing s with
  | zero =>
    cases h
    rw [Nat.zero_add]
  | succ j ih =>
    obtain ⟨u, hu, ht⟩ := Laws.andThen_next (cycles_succ j s ▸ h)
    rw [Nat.succ_add, cycles_succ, hu]
    exact ih ht

/-- One more cycle at the end of a run. -/
theorem cycles_succ_of_next {k : Nat} {s t : State} (h : cycles k s = .next t) : cycles (k + 1) s = step t := by
  rw [cycles_add_of_next h, cycles_succ]
  cases step t <;> rfl

/-- What every step keeps, every run keeps. -/
theorem cycles_keeps {P : State → Prop} (hP : ∀ {s t : State}, P s → step s = .next t → P t) {k : Nat} {s t : State}
    (hs : P s) (h : cycles k s = .next t) : P t := by
  induction k generalizing s with
  | zero =>
    cases h
    exact hs
  | succ k ih =>
    obtain ⟨u, hu, ht⟩ := Laws.andThen_next (cycles_succ k s ▸ h)
    exact ih (hP hs hu) ht

/-! ### Configuration and inputs along a run -/

/-- No step writes the configuration (log 1). -/
theorem step_cfg {s t : State} (h : step s = .next t) : t.cfg = s.cfg := by
  obtain ⟨-, rfl⟩ | ⟨-, a, b, c, -, -, -, rfl⟩ := Laws.step_next_cases h <;> rfl

theorem cycles_cfg {k : Nat} {s t : State} (h : cycles k s = .next t) : t.cfg = s.cfg :=
  cycles_keeps (P := fun u => u.cfg = s.cfg) (fun hu hstep => (step_cfg hstep).trans hu) rfl h

/-- Every step consumes one cycle of the inputs (log 3). -/
theorem step_inputAt {s t : State} (h : step s = .next t) (k : Nat) : inputAt t k = inputAt s (k + 1) := by
  obtain ⟨-, rfl⟩ | ⟨-, a, b, c, -, -, -, rfl⟩ := Laws.step_next_cases h <;> exact Laws.inputAt_tick s _ k

theorem cycles_inputAt {k : Nat} {s t : State} (h : cycles k s = .next t) (j : Nat) :
    inputAt t j = inputAt s (k + j) := by
  induction k generalizing s with
  | zero =>
    cases h
    rw [Nat.zero_add]
  | succ k ih =>
    obtain ⟨u, hu, ht⟩ := Laws.andThen_next (cycles_succ k s ▸ h)
    rw [ih ht, step_inputAt hu, Nat.succ_add]

/-- The inputs of the cycle a run has come to. -/
theorem cycles_input {k : Nat} {s t : State} (h : cycles k s = .next t) : input t = inputAt s k := cycles_inputAt h 0

/-! ### Operands in range -/

/-- The operands the session layer holds for the next transfer are in range (`10_state.md` R49). -/
def Startable (s : State) : Prop := operandsLegal s.cfg s.session.sRqlen s.session.sRslen = true

/-- A request of at most three bytes fits every buffer (`00_scope.md` R8). -/
theorem operandsLegal_of_le (c : Config) {q r : Nat} (hq : 1 ≤ q ∧ q ≤ 3) (hr : 1 ≤ r ∧ r ≤ 32) :
    operandsLegal c q r = true := by
  obtain ⟨-, -, -, hmax, -⟩ := c.legal
  exact (Laws.operandsLegal_iff c q r).mpr ⟨hq.1, hq.2.trans hmax, hr⟩

theorem startable_of_inv {s : State} (h : s.Inv) : Startable s := by
  obtain ⟨-, -, ⟨-, -, -, -, -, -, hq, hq3, hr, hr32, -⟩, -⟩ := h
  exact operandsLegal_of_le s.cfg ⟨hq, hq3⟩ ⟨hr, hr32⟩

/-- With operands in range the orchestrator's arm answers a next state. -/
theorem orch_arm_next {s : State} (hs : Startable s) : ∃ b, exec (orchInstr s) s = .next b := by
  unfold orchInstr
  split
  · simp only [exec, execArmOIdle]
    split
    · obtain ⟨-, e⟩ | ⟨hn, -⟩ := Laws.startTransfer_cases s.session.sReq s.session.sRqlen s.session.sRslen s
      · exact ⟨_, e⟩
      · exact absurd (hs.symm.trans hn) (by decide)
    · exact ⟨_, rfl⟩
  · exact ⟨_, rfl⟩
  · simp only [exec, execArmOCtrl]; split <;> exact ⟨_, rfl⟩
  · simp only [exec, execArmOReq]; split_ifs <;> exact ⟨_, rfl⟩
  · simp only [exec, execArmOCollect]
    split
    · exact ⟨_, rfl⟩
    · split <;> exact ⟨_, rfl⟩
  · simp only [exec, execArmOSpace]; split <;> exact ⟨_, rfl⟩
  · exact ⟨_, rfl⟩

/-- With operands in range a step goes on, `rst` or not. -/
theorem step_next_of_startable {s : State} (hs : Startable s) : ∃ t, step s = .next t := by
  cases hr : (input s).rst with
  | true => exact ⟨_, if_pos hr⟩
  | false =>
    obtain ⟨a, ha⟩ := Laws.codec_arm_next s
    obtain ⟨b, hb⟩ := orch_arm_next hs
    obtain ⟨c, hc⟩ := Laws.session_arm_next s
    exact ⟨_, step_of_arms_next hr ha hb hc⟩

theorem whenReady_startable {f : State → State} {s : State} (hs : Startable s) (hf : Startable (f s)) :
    Startable (whenReady f s) := by
  by_cases h : s.session.ss = .sIdle
  · rwa [Laws.whenReady_of_ready f s h]
  · rwa [Laws.whenReady_of_busy f s h]

/-- A command leaves the operands of one of the two frames, or those it found. -/
theorem acceptCommand_startable {s : State} (hs : Startable s) (op : BitVec 2) (arg : Bool) :
    Startable (acceptCommand op arg s) := by
  unfold acceptCommand
  cases hostOp op with
  | identify => exact whenReady_startable hs (operandsLegal_of_le s.cfg (q := 1) (r := 3) (by decide) (by decide))
  | poll => exact whenReady_startable hs (operandsLegal_of_le s.cfg (q := 3) (r := 8) (by decide) (by decide))
  | setRumble => exact whenReady_startable hs hs
  | pollr => exact whenReady_startable hs (operandsLegal_of_le s.cfg (q := 3) (r := 8) (by decide) (by decide))

/-- The session layer writes operands when it accepts a command, and at no other time (`10_state.md` R49). -/
theorem session_arm_startable {s c : State} (hs : Startable s) (h : exec (sessionInstr s) s = .next c) :
    operandsLegal s.cfg c.session.sRqlen c.session.sRslen = true := by
  obtain ⟨rfl, -⟩ | ⟨-, -, rfl⟩ | ⟨-, rfl⟩ | ⟨-, -, -, rfl⟩ | ⟨-, -, -, rfl⟩ := session_arm_cases h
  · exact hs
  · have hc := acceptCommand_startable hs (input s).cmdOp (input s).cmdArg
    rw [Startable, Laws.acceptCommand_frame] at hc
    exact hc
  all_goals exact hs

/-- Operands in range stay in range. -/
theorem step_startable {s t : State} (hs : Startable s) (h : step s = .next t) : Startable t := by
  obtain ⟨-, rfl⟩ | ⟨-, a, b, c, -, -, hc, rfl⟩ := Laws.step_next_cases h
  · exact operandsLegal_of_le s.cfg (q := 1) (r := 1) (by decide) (by decide)
  · exact (session_arm_startable hs hc :)

/-- With operands in range a run goes on for any number of cycles. -/
theorem cycles_next_of_startable {s : State} (hs : Startable s) (k : Nat) : ∃ t, cycles k s = .next t := by
  induction k with
  | zero => exact ⟨s, rfl⟩
  | succ k ih =>
    obtain ⟨t, ht⟩ := ih
    rw [cycles_succ_of_next ht]
    exact step_next_of_startable (cycles_keeps step_startable hs ht)

end Sys2Proof.Proofs
end

section
/-! A transmitted slot, cycle by cycle (`40_codec.md` R122, R126, R127, R138). -/

namespace Sys2Proof.Proofs

open Sys2Proof.Machine

/-! ### One cycle of `C_TXBIT` -/

/-- The codec's registers after an edge are those its arm left (`20_memory.md` R75). -/
theorem step_codec {s t : State} (hrst : (input s).rst = false) (h : step s = .next t) :
    ∃ a, exec (codecInstr s) s = .next a ∧ t.codec = a.codec := by
  obtain ⟨hrst', -⟩ | ⟨-, a, b, c, ha, -, -, rfl⟩ := Laws.step_next_cases h
  · simp [hrst] at hrst'
  · exact ⟨a, ha, rfl⟩

theorem codecInstr_cTxBit {s : State} (hr : restart s = false) (hc : s.codec.cs = .cTxBit) :
    codecInstr s = .armCTxBit := by
  simp [codecInstr, hr, hc]

/-- The codec's registers after an edge in `C_TXBIT` are those of that arm. -/
theorem step_codec_cTxBit {s t a : State} (hrst : (input s).rst = false) (hr : restart s = false)
    (hc : s.codec.cs = .cTxBit) (h : step s = .next t) (ha : exec .armCTxBit s = .next a) : t.codec = a.codec := by
  obtain ⟨a', ha', ht⟩ := step_codec hrst h
  rw [codecInstr_cTxBit hr hc, ha] at ha'
  cases ha'
  exact ht

/-- Inside a slot `ph` counts (R126). -/
theorem exec_armCTxBit_inside {s : State} (hp : s.codec.ph < s.cfg.tSlot - 1) :
    exec .armCTxBit s = .next (s.setCodec { s.codec with ph := s.codec.ph + 1 }) :=
  if_pos hp

/-- The last cycle of a slot that is not the eighth makes the next bit the upper one (R127). -/
theorem exec_armCTxBit_nextSlot {s : State} (hp : s.codec.ph = s.cfg.tSlot - 1) (hb : s.codec.bitc < 7#3) :
    exec .armCTxBit s =
      .next (s.setCodec { s.codec with osr := s.codec.osr <<< 1, bitc := s.codec.bitc + 1#3, ph := 0 }) :=
  (if_neg (Nat.not_lt.mpr hp.ge)).trans (if_pos hb)

/-! ### The slot -/

/-- The first cycle of a slot that is sent to its end: no reset and no restart comes in between. -/
structure SlotBegins (s : State) : Prop where
  startable : Startable s
  sending : s.codec.cs = .cTxBit
  ph_zero : s.codec.ph = 0
  no_rst : ∀ k < s.cfg.tSlot, (inputAt s k).rst = false
  no_restart : ∀ k < s.cfg.tSlot, ∀ u, cycles k s = .next u → restart u = false

/-- One cycle of a slot makes of the codec's registers what the arm of `C_TXBIT` makes of them. -/
theorem SlotBegins.step_codec {s u t a : State} (h : SlotBegins s) {k : Nat} (hk : k < s.cfg.tSlot)
    (hu : cycles k s = .next u) (hc : u.codec.cs = .cTxBit) (ht : cycles (k + 1) s = .next t)
    (ha : exec .armCTxBit u = .next a) : t.codec = a.codec :=
  step_codec_cTxBit (cycles_input hu ▸ h.no_rst k hk) (h.no_restart k hk u hu) hc (cycles_succ_of_next hu ▸ ht) ha

/-- In cycle `k` of a slot only `ph` has moved since its first cycle. -/
theorem SlotBegins.codec_inside {s : State} (h : SlotBegins s) {k : Nat} (hk : k < s.cfg.tSlot) {t : State}
    (ht : cycles k s = .next t) : t.codec = { s.codec with ph := k } := by
  induction k generalizing t with
  | zero =>
    cases ht
    rw [← h.ph_zero]
  | succ k ih =>
    have hk' : k < s.cfg.tSlot := by omega
    obtain ⟨u, hu⟩ := cycles_next_of_startable h.startable k
    have hcodec := ih hk' hu
    have hph : u.codec.ph < u.cfg.tSlot - 1 := by rw [hcodec, cycles_cfg hu]; exact Nat.lt_sub_of_add_lt hk
    rw [h.step_codec hk' hu (by rw [hcodec, h.sending]) ht (exec_armCTxBit_inside hph), Laws.setCodec_codec, hcodec]

/-- After a slot that is not the eighth the next one begins with the next bit (`40_codec.md` R127). -/
theorem SlotBegins.codec_after {s : State} (h : SlotBegins s) (hb : s.codec.bitc < 7#3) {t : State}
    (ht : cycles s.cfg.tSlot s = .next t) :
    t.codec = { s.codec with osr := s.codec.osr <<< 1, bitc := s.codec.bitc + 1#3, ph := 0 } := by
  obtain ⟨-, -, -, -, -, -, -, hpos, -⟩ := s.cfg.legal
  obtain ⟨n, hn⟩ := Nat.exists_eq_add_one.mpr (Nat.zero_lt_of_lt hpos)
  have hlt : n < s.cfg.tSlot := by omega
  obtain ⟨u, hu⟩ := cycles_next_of_startable h.startable n
  have hcodec := h.codec_inside hlt hu
  have hph : u.codec.ph = u.cfg.tSlot - 1 := by rw [hcodec, cycles_cfg hu, hn]; rfl
  have hbit : u.codec.bitc < 7#3 := by rw [hcodec]; exact hb
  rw [h.step_codec hlt hu (by rw [hcodec, h.sending]) (hn ▸ ht) (exec_armCTxBit_nextSlot hph hbit),
    Laws.setCodec_codec, hcodec]

/-- While a slot is sent the line is asserted in its low part: the level is the slot's entry at `ph` (R122, R138). -/
theorem getElem?_slotLevels_ph {t : State} (hc : t.codec.cs = .cTxBit) (hp : t.codec.ph < t.cfg.tSlot) :
    (slotLevels t.cfg (t.codec.osr.getLsbD 31))[t.codec.ph]? = some (!driveLow t) := by
  simp only [getElem?_slotLevels hp, driveLow, hc, ← decide_not, Nat.not_lt]

/-- Settles O56: in cycle `k` of the slot `ph` is `k`, and its last cycle leads to the next slot. -/
theorem slotOnTheWire : Obligations.SlotOnTheWire := by
  intro s hinv hc hp hrst hres
  have h : SlotBegins s := ⟨startable_of_inv hinv, hc, hp, hrst, hres⟩
  constructor
  · intro k hk
    obtain ⟨t, ht⟩ := cycles_next_of_startable h.startable k
    have hcodec := h.codec_inside hk ht
    have hcfg := cycles_cfg ht
    have hlevel := getElem?_slotLevels_ph (t := t) (by rw [hcodec, hc]) (by rw [hcodec, hcfg]; exact hk)
    rw [hcodec, hcfg] at hlevel
    exact ⟨t, ht, by rw [hcodec, hc], by rw [hcodec], hlevel⟩
  · intro hb
    obtain ⟨t, ht⟩ := cycles_next_of_startable h.startable s.cfg.tSlot
    have hcodec := h.codec_after hb ht
    exact ⟨t, ht, by rw [hcodec, hc], by rw [hcodec], by rw [hcodec], by rw [hcodec]⟩

end Sys2Proof.Proofs
end

section
/-! The codec's arms and the words it takes (`40_codec.md` sections 2 to 4): one equation for each case of each arm. -/

namespace Sys2Proof.Proofs

open Sys2Proof.Machine

/-! ### The TXQ words and the restart arm -/

/-- LENM1 is what stands above bit 26 (`30_encoding.md` R96). -/
theorem lenm1Of_eq_ofNat (w : TxWord) : lenm1Of w = BitVec.ofNat 5 (w.toNat / 2 ^ 27) := by
  rw [← Nat.shiftRight_eq_div_pow]
  rfl

/-- Settles O20: a word's meaning is its being taken. -/
theorem codecTakesTxqWords : Obligations.CodecTakesTxqWords := fun _ _ _ => ⟨rfl, rfl⟩

/-- Settles O25: the codec's reset value and the two flushes, written out. -/
theorem restartArmClearsCodec : Obligations.RestartArmClearsCodec := fun _ => rfl

/-! ### Waiting for a word: `C_IDLE` (R124) and `C_TXWAIT` (R125) -/

theorem exec_armCIdle_nil {s : State} (h : s.txq = []) : exec .armCIdle s = .next s := by
  simp only [exec, execArmCIdle, h]

theorem exec_armCIdle_cons {s : State} {w : TxWord} {q : List TxWord} (h : s.txq = w :: q) :
    exec .armCIdle s = .next (takeControl (lenm1Of w) s) := by
  simp only [exec, execArmCIdle, h]

theorem exec_armCTxWait_nil {s : State} (h : s.txq = []) : exec .armCTxWait s = .next s := by
  simp only [exec, execArmCTxWait, h]

theorem exec_armCTxWait_cons {s : State} {w : TxWord} {q : List TxWord} (h : s.txq = w :: q) :
    exec .armCTxWait s = .next (takeData w s) := by
  simp only [exec, execArmCTxWait, h]

/-- The word the codec takes leaves TXQ. -/
theorem takeData_of_cons {s : State} {v : TxWord} {q : List TxWord} (h : s.txq = v :: q) (w : TxWord) :
    takeData w s =
      { s with txq := q, codec := { s.codec with osr := w, bitc := 0#3, ph := 0, cs := .cTxBit } } := by
  have hq : q = s.txq.tail := by rw [h, List.tail_cons]
  rw [hq]
  rfl

/-- Outside `C_TXBIT` and `C_STOP` the codec releases the line (R122). -/
theorem driveLow_of_not_sending {s : State} (ht : s.codec.cs ≠ .cTxBit) (hs : s.codec.cs ≠ .cStop) :
    driveLow s = false := by
  rw [← Bool.not_eq_true, driveLow_iff]
  rintro (h | ⟨h, -⟩)
  · exact hs h
  · exact ht h

/-- Settles O26: of the head of TXQ the length field is kept. -/
theorem cIdleTakesControlWord : Obligations.CIdleTakesControlWord := by
  refine fun s => ⟨fun w q h => ?_, exec_armCIdle_nil, fun hc => driveLow_of_not_sending (by simp [hc]) (by simp [hc])⟩
  have hq : q = s.txq.tail := by rw [h, List.tail_cons]
  rw [exec_armCIdle_cons h, lenm1Of_eq_ofNat, hq]
  rfl

/-- Settles O27: the head of TXQ is taken whole. -/
theorem cTxWaitTakesFirstWord : Obligations.CTxWaitTakesFirstWord := fun _ =>
  ⟨fun w _ h => by rw [exec_armCTxWait_cons h, takeData_of_cons h], exec_armCTxWait_nil,
    fun hc => driveLow_of_not_sending (by simp [hc]) (by simp [hc])⟩

/-! ### Sending: `C_TXBIT` (R126 to R128) and `C_STOP` (R129) -/

/-- The last cycle of the eighth slot is the boundary of the byte. -/
theorem exec_armCTxBit_boundary {s : State} (hp : s.codec.ph = s.cfg.tSlot - 1) (hb : s.codec.bitc = 7#3) :
    exec .armCTxBit s = .next (byteBoundary s) :=
  (if_neg (Nat.not_lt.mpr hp.ge)).trans (if_neg (by simp [hb]))

theorem byteBoundary_nil {s : State} (h : s.txq = []) :
    byteBoundary s = s.setCodec { s.codec with cs := .cStop, ph := 0, bitc := 0#3 } := by
  simp only [byteBoundary, h]

theorem byteBoundary_cons {s : State} {w : TxWord} {q : List TxWord} (h : s.txq = w :: q) :
    byteBoundary s = takeData w s := by
  simp only [byteBoundary, h]

/-- The low part of a slot by the number in `osr`: bit 31 is set from `2 ^ 31` on (`30_encoding.md` R92). -/
theorem tLow_getLsbD_31 (c : Config) (w : TxWord) :
    tLow c (w.getLsbD 31) = if 2 ^ 31 ≤ w.toNat then c.tShort else c.tLong := by
  have hbit : w.getLsbD 31 = decide (2 ^ 31 ≤ w.toNat) :=
    (BitVec.msb_eq_getLsbD_last w).symm.trans (BitVec.msb_eq_decide w)
  simp only [tLow, hbit, decide_eq_true_eq]

/-- Settles O28: the four cases of the arm, and `drive_low` by the number in `osr`. -/
theorem cTxBitSendsSlots : Obligations.CTxBitSendsSlots := by
  refine fun s => ⟨exec_armCTxBit_inside, fun hp hb => ?_, fun hp hb w q h => ?_, fun hp hb h => ?_, fun hc => ?_⟩
  · refine ⟨_, exec_armCTxBit_nextSlot hp hb, ?_, ?_, rfl, rfl⟩
    · rw [Laws.setCodec_codec, BitVec.toNat_shiftLeft, Nat.shiftLeft_eq, Nat.mul_comm, pow_one]
    · rw [Laws.setCodec_codec, BitVec.toNat_add]
      exact Nat.mod_eq_of_lt (Nat.succ_lt_succ hb)
  · rw [exec_armCTxBit_boundary hp hb, byteBoundary_cons h, takeData_of_cons h]
  · rw [exec_armCTxBit_boundary hp hb, byteBoundary_nil h]
    rfl
  · rw [driveLow_iff, tLow_getLsbD_31]
    simp [hc]

/-- In the asserted time `ph` counts. -/
theorem exec_armCStop_inside {s : State} (hp : s.codec.ph < s.cfg.tStopLow - 1) :
    exec .armCStop s = .next (s.setCodec { s.codec with ph := s.codec.ph + 1 }) :=
  if_pos hp

/-- After the last asserted cycle the codec listens. -/
theorem exec_armCStop_last {s : State} (hp : s.codec.ph = s.cfg.tStopLow - 1) :
    exec .armCStop s = .next (s.setCodec { s.codec with cs := .cRxHigh, ph := 0, isr := 0#8, rbit := 0#3 }) :=
  if_neg (Nat.not_lt.mpr hp.ge)

/-- Settles O29: the two cases of the arm; the codec drives in all of `C_STOP`. -/
theorem cStopThenListens : Obligations.CStopThenListens := fun s =>
  ⟨exec_armCStop_inside, exec_armCStop_last, fun hc => (driveLow_iff s).mpr (.inl hc)⟩

/-! ### Listening: `C_RXHIGH` (R130), `C_RXARM` (R131), `C_RXSETTLE` (R132, R133), `C_RXPUSH` (R134) -/

/-- The line is high when neither end pulls it (R121). -/
theorem lineIn_iff (s : State) : lineIn s = true ↔ driveLow s = false ∧ (input s).periphLow = false := by
  simp [lineIn]

theorem exec_armCRxHigh_high {s : State} (h : lineIn s = true) :
    exec .armCRxHigh s = .next (s.setCodec { s.codec with cs := .cRxArm }) :=
  congrArg Host.Outcome.next (if_pos h)

theorem exec_armCRxHigh_low {s : State} (h : ¬ lineIn s = true) : exec .armCRxHigh s = .next s :=
  congrArg Host.Outcome.next (if_neg h)

theorem exec_armCRxArm_high {s : State} (h : lineIn s = true) : exec .armCRxArm s = .next s :=
  congrArg Host.Outcome.next (if_pos h)

theorem exec_armCRxArm_low {s : State} (h : ¬ lineIn s = true) :
    exec .armCRxArm s = .next (s.setCodec { s.codec with cs := .cRxSettle, ph := 0 }) :=
  congrArg Host.Outcome.next (if_neg h)

/-- Settles O30: the arm asks for the level of the line. -/
theorem cRxHighArmsOnHighLine : Obligations.CRxHighArmsOnHighLine := by
  intro s
  rw [← lineIn_iff]
  exact ⟨exec_armCRxHigh_high, exec_armCRxHigh_low⟩

/-- Settles O31: the arm asks for the level of the line. -/
theorem cRxArmDetectsFallingEdge : Obligations.CRxArmDetectsFallingEdge := by
  intro s
  rw [← lineIn_iff]
  exact ⟨exec_armCRxArm_low, exec_armCRxArm_high⟩

/-- While the line settles `ph` counts. -/
theorem exec_armCRxSettle_inside {s : State} (hp : s.codec.ph < s.cfg.tSettle - 1) :
    exec .armCRxSettle s = .next (s.setCodec { s.codec with ph := s.codec.ph + 1 }) :=
  if_pos hp

/-- The last cycle takes the sample. -/
theorem exec_armCRxSettle_last {s : State} (hp : s.codec.ph = s.cfg.tSettle - 1) :
    exec .armCRxSettle s = .next (takeSample (lineIn s) s) :=
  if_neg (Nat.not_lt.mpr hp.ge)

/-- The sampled bit comes in below, bit 7 falls out. -/
theorem shiftIn_toNat (isr : Byte) (b : Bool) : (shiftIn isr b).toNat = 2 * isr.toNat % 256 + b.toNat := by
  rw [shiftIn, toNat_append_eq_mul_add, BitVec.extractLsb'_toNat, BitVec.toNat_ofBool, Nat.shiftRight_zero]
  omega

/-- Settles O32: a sample is one more bit of the byte or its eighth. -/
theorem cRxSettleSamplesOnce : Obligations.CRxSettleSamplesOnce := by
  refine fun s => ⟨exec_armCRxSettle_inside, fun hp => ⟨_, exec_armCRxSettle_last hp, ?_⟩⟩
  obtain ⟨h7, e⟩ | ⟨h7, e⟩ := Laws.takeSample_cases (lineIn s) s
  · rw [e]
    exact ⟨shiftIn_toNat _ _, rfl, fun hlt => absurd hlt (by simp [h7]), fun _ => ⟨rfl, rfl⟩, rfl⟩
  · rw [e]
    have hne : s.codec.rbit.toNat ≠ 7 := fun h => h7 (BitVec.eq_of_toNat_eq h)
    refine ⟨shiftIn_toNat _ _, rfl, fun hlt => ⟨?_, rfl⟩, fun h => absurd h hne, rfl⟩
    rw [Laws.setCodec_codec, BitVec.toNat_add]
    exact Nat.mod_eq_of_lt (Nat.succ_lt_succ hlt)

/-- The last byte of the response. -/
theorem exec_armCRxPush_last {s : State} (hq : s.rxq.length < s.cfg.qdRx) (hn : s.codec.rxn = 0#5) :
    exec .armCRxPush s = .next ((s.setRxq (s.rxq ++ [s.codec.isr])).setCodec { s.codec with cs := .cIdle }) :=
  (if_pos ((Laws.rxNotFull_iff s).mpr hq)).trans (if_pos hn)

/-- A byte with more to come. -/
theorem exec_armCRxPush_more {s : State} (hq : s.rxq.length < s.cfg.qdRx) (hn : s.codec.rxn ≠ 0#5) :
    exec .armCRxPush s = .next ((s.setRxq (s.rxq ++ [s.codec.isr])).setCodec
      { s.codec with rxn := s.codec.rxn - 1#5, cs := .cRxHigh }) :=
  (if_pos ((Laws.rxNotFull_iff s).mpr hq)).trans (if_neg hn)

/-- No room: the codec keeps the byte. -/
theorem exec_armCRxPush_full {s : State} (hq : s.cfg.qdRx ≤ s.rxq.length) : exec .armCRxPush s = .next s :=
  if_neg fun h => Nat.not_lt.mpr hq ((Laws.rxNotFull_iff s).mp h)

/-- A count that is not 0 goes down by one. -/
theorem toNat_sub_one_add_one {n : BitVec 5} (h : n ≠ 0#5) : (n - 1#5).toNat + 1 = n.toNat := by
  bv_omega

/-- Settles O33: the three cases of the arm. -/
theorem cRxPushHandsByteOver : Obligations.CRxPushHandsByteOver := fun _ =>
  ⟨exec_armCRxPush_last, fun hq hn => ⟨_, toNat_sub_one_add_one hn, exec_armCRxPush_more hq hn⟩, exec_armCRxPush_full⟩

end Sys2Proof.Proofs
end

section
/-! The codec's registers at an edge (`40_codec.md` R120): they are those its arm left, the arm of the line symbol or of
the word taken in the cycle where there is one; nothing of the orchestrator or the session layer but `restart` reaches
them; and `ph` stays in its range (`10_state.md` R34). -/

namespace Sys2Proof.Proofs

open Sys2Proof.Machine

/-! ### The arm of a cycle without restart -/

/-- The arm of a codec state (`40_codec.md` R120). -/
def codecArm : CState → Instr
  | .cIdle => .armCIdle
  | .cTxWait => .armCTxWait
  | .cTxBit => .armCTxBit
  | .cStop => .armCStop
  | .cRxHigh => .armCRxHigh
  | .cRxArm => .armCRxArm
  | .cRxSettle => .armCRxSettle
  | .cRxPush => .armCRxPush

theorem codecInstr_of_not_restart {s : State} (hr : restart s = false) : codecInstr s = codecArm s.codec.cs := by
  rw [codecInstr, hr]
  cases s.codec.cs <;> rfl

/-- Without restart the codec's registers after an edge are those the arm of `cs` left. -/
theorem step_codec_of_arm {s t a : State} {c : CState} (hrst : (input s).rst = false) (hr : restart s = false)
    (hc : s.codec.cs = c) (h : step s = .next t) (ha : exec (codecArm c) s = .next a) : t.codec = a.codec := by
  obtain ⟨a', ha', ht⟩ := step_codec hrst h
  rw [codecInstr_of_not_restart hr, hc, ha] at ha'
  cases ha'
  exact ht

/-! ### Symbols and words (log 8, 9) -/

/-- Bit 31 of `osr` is the symbol of a transmitted slot (`30_encoding.md` R92). -/
theorem exec_ite_bit (b : Bool) (s : State) : exec (if b then .bit1 else .bit0) s = .next (bitSymbol b s) := by
  cases b <;> rfl

/-- What the symbol of the cycle puts on record is `drive_low` of the cycle (R122). -/
theorem lineSymbol_driveLow {s a : State} {i : Instr} (hi : lineSymbol s = some i) (ha : exec i s = .next a)
    (hc : s.codec.cs ≠ .cRxSettle) : driveLow s = a.seen.driveLow := by
  unfold lineSymbol at hi
  cases hcs : s.codec.cs <;> rw [hcs] at hi
  case cTxBit =>
    cases hi
    rw [exec_ite_bit, bitSymbol_sent hcs] at ha
    cases ha
    simp only [driveLow, hcs]
    rfl
  case cStop =>
    cases hi
    cases ha
    simp only [driveLow, hcs, if_true]
    rfl
  case cRxSettle => exact absurd hcs hc
  all_goals cases hi

/-- In a cycle without a symbol the line is released. -/
theorem driveLow_of_lineSymbol_none {s : State} (h : lineSymbol s = none) : driveLow s = false :=
  driveLow_of_not_sending (fun hc => by simp [lineSymbol, hc] at h) (fun hc => by simp [lineSymbol, hc] at h)

/-- The symbol of the sampling cycle is the sample of the arm (`30_encoding.md` R94, `40_codec.md` R133). -/
theorem exec_armCRxSettle_of_lineSymbol {s : State} {i : Instr} (hi : lineSymbol s = some i)
    (hc : s.codec.cs = .cRxSettle) : exec .armCRxSettle s = exec i s := by
  simp only [lineSymbol, hc] at hi
  split at hi
  case isTrue hp =>
    cases hi
    rw [exec_armCRxSettle_last hp, exec_ite_bit, bitSymbol_sampled hc hp]
  case isFalse => cases hi

/-- A word with nothing below its byte is the data word of the byte (`30_encoding.md` R97). -/
theorem dataWord_byteOf {w : TxWord} (h : w.extractLsb' 0 24 = 0#24) : dataWord (byteOf w) = w := by
  rw [dataWord, byteOf, ← h, BitVec.extractLsb'_append_extractLsb'_eq_extractLsb' (by decide)]
  simp

/-- Settles O46: the symbol of the cycle and the word at the head of TXQ do what the arm of the cycle does. -/
theorem stepRunsSymbolsAndWords : Obligations.StepRunsSymbolsAndWords := by
  intro s t hrst hr h
  have hseen : t.seen.driveLow = driveLow s := by rw [step_next_seen h, outputs]
  refine ⟨fun i a hi ha => ⟨fun hc => ?_, fun hc => ?_⟩, fun hn => ?_, fun w q i a hq hc hd ha => ?_,
    fun w q i a hq hw hc hd ha => ?_⟩
  · rw [hseen, lineSymbol_driveLow hi ha hc]
  · exact step_codec_of_arm hrst hr hc h ((exec_armCRxSettle_of_lineSymbol hi hc).trans ha)
  · rw [hseen, driveLow_of_lineSymbol_none hn]
  · obtain rfl : .txwC (lenm1Of w) = i := Except.ok.inj hd
    exact step_codec_of_arm hrst hr hc h ((exec_armCIdle_cons hq).trans ha)
  · obtain rfl : .txwD (byteOf w) = i := Except.ok.inj hd
    have htake : exec (.txwD (byteOf w)) s = .next (takeData w s) :=
      congrArg (fun v => Host.Outcome.next (takeData v s)) (dataWord_byteOf hw)
    obtain hc | ⟨hc, hp, hb⟩ := hc
    · exact step_codec_of_arm hrst hr hc h ((exec_armCTxWait_cons hq).trans (htake.symm.trans ha))
    · refine step_codec_of_arm hrst hr hc h (Eq.trans ?_ (htake.symm.trans ha))
      exact (exec_armCTxBit_boundary hp hb).trans (congrArg _ (byteBoundary_cons hq))

/-! ### What the codec reads (R120) -/

/-- What the codec may read, from `s`; all the rest, from `r`. -/
def withRest (s r : State) : State := { r with cfg := s.cfg, codec := s.codec, txq := s.txq, rxq := s.rxq }

theorem eq_withRest {s r : State} (hcfg : s.cfg = r.cfg) (hcodec : s.codec = r.codec) (htx : s.txq = r.txq)
    (hrx : s.rxq = r.rxq) : r = withRest s r := by
  rw [withRest, hcfg, hcodec, htx, hrx]

/-- The codec's registers in an outcome. -/
def outcomeCodec : Host.Outcome State Fault Refusal → Option Codec
  | .next a => some a.codec
  | .fault _ | .refused _ => none

theorem outcomeCodec_next (a : State) : outcomeCodec (.next a) = some a.codec := rfl

theorem takeSample_withRest_codec (b : Bool) (s r : State) :
    (takeSample b (withRest s r)).codec = (takeSample b s).codec := by
  simp only [takeSample, apply_ite State.codec]
  rfl

/-- With the same level on the line an arm does the same to the codec's registers, whatever the rest. The conditions
of an arm do not read the rest, so the registers are looked up in its branches. -/
theorem codec_arm_withRest {s r : State} (hl : lineIn (withRest s r) = lineIn s) :
    outcomeCodec (exec (codecArm s.codec.cs) (withRest s r)) = outcomeCodec (exec (codecArm s.codec.cs) s) := by
  cases s.codec.cs with
  | cIdle =>
    cases hq : s.txq <;> simp only [codecArm, exec, execArmCIdle, show (withRest s r).txq = s.txq from rfl, hq] <;> rfl
  | cTxWait =>
    cases hq : s.txq <;>
      simp only [codecArm, exec, execArmCTxWait, show (withRest s r).txq = s.txq from rfl, hq] <;> rfl
  | cTxBit =>
    cases hq : s.txq <;>
      simp only [codecArm, exec, execArmCTxBit, byteBoundary, show (withRest s r).txq = s.txq from rfl, hq,
        apply_ite outcomeCodec] <;> rfl
  | cStop => simp only [codecArm, exec, execArmCStop, apply_ite outcomeCodec]; rfl
  | cRxHigh => simp only [codecArm, exec, execArmCRxHigh, hl, outcomeCodec_next, apply_ite State.codec]; rfl
  | cRxArm => simp only [codecArm, exec, execArmCRxArm, hl, outcomeCodec_next, apply_ite State.codec]; rfl
  | cRxSettle =>
    simp only [codecArm, exec, execArmCRxSettle, hl, apply_ite outcomeCodec, outcomeCodec_next,
      takeSample_withRest_codec]
    rfl
  | cRxPush => simp only [codecArm, exec, execArmCRxPush, apply_ite outcomeCodec]; rfl

/-- Under restart the codec's registers are cleared (R123). -/
theorem step_codec_of_restart {s t : State} (hrst : (input s).rst = false) (hr : restart s = true)
    (h : step s = .next t) : t.codec = .reset := by
  obtain ⟨a, ha, ht⟩ := step_codec hrst h
  rw [codecInstr, if_pos hr] at ha
  cases ha
  rw [ht]
  rfl

/-- Settles O50: under restart the registers are cleared, otherwise the same arm runs on the same registers. -/
theorem codecIndependentOfTheRest : Obligations.CodecIndependentOfTheRest := by
  intro s s' t t' hrst hrst' hcfg hcodec htx hrx hr hl h h'
  cases hres : restart s with
  | true => rw [step_codec_of_restart hrst hres h, step_codec_of_restart hrst' (hr ▸ hres) h']
  | false =>
    obtain ⟨a, ha, ht⟩ := step_codec hrst h
    obtain ⟨a', ha', ht'⟩ := step_codec hrst' h'
    rw [codecInstr_of_not_restart hres] at ha
    rw [codecInstr_of_not_restart (hr ▸ hres), ← hcodec] at ha'
    have heq := eq_withRest hcfg hcodec htx hrx
    have hsame := codec_arm_withRest (s := s) (r := s') (heq ▸ hl.symm)
    rw [← heq, ha, ha'] at hsame
    rw [ht, ht']
    exact (Option.some.inj hsame).symm

/-! ### The range of `ph` -/

/-- How many values `ph` has in a codec state (`10_state.md` R34; in `C_STOP` log 16). -/
def phaseEnd (c : Config) : CState → Nat
  | .cTxBit => c.tSlot
  | .cStop => c.tStopLow
  | .cRxSettle => c.tSettle
  | .cIdle | .cTxWait | .cRxHigh | .cRxArm | .cRxPush => 1

theorem phaseOk_iff (s : State) : s.PhaseOk ↔ s.codec.ph < phaseEnd s.cfg s.codec.cs := by
  cases hc : s.codec.cs <;> simp [State.PhaseOk, phaseEnd, hc]

theorem phaseEnd_pos (c : Config) (x : CState) : 0 < phaseEnd c x := by
  obtain ⟨-, -, -, -, -, hss, -, hl, -, hstop, -⟩ := c.legal
  cases x with
  | cTxBit => exact Nat.zero_lt_of_lt hl
  | cStop => exact hstop
  | cRxSettle => exact Nat.zero_lt_of_lt hss
  | cIdle | cTxWait | cRxHigh | cRxArm | cRxPush => exact Nat.one_pos

/-- An arm counts `ph` up to the end of its range, starts it again from 0, or leaves it at 0. -/
theorem codec_arm_phase {s a : State} (hp : s.PhaseOk) (h : exec (codecInstr s) s = .next a) :
    a.codec.ph < phaseEnd s.cfg a.codec.cs := by
  have hzero := phaseEnd_pos s.cfg
  cases hr : restart s with
  | true =>
    rw [codecInstr, if_pos hr] at h
    cases h
    exact hzero _
  | false =>
    rw [phaseOk_iff] at hp
    rw [codecInstr_of_not_restart hr] at h
    cases hc : s.codec.cs <;> rw [hc] at h hp <;> simp only [phaseEnd] at hp
    case cIdle =>
      cases hq : s.txq with
      | nil => cases (exec_armCIdle_nil hq).symm.trans h; rwa [hc]
      | cons w q => cases (exec_armCIdle_cons hq).symm.trans h; exact hp
    case cTxWait =>
      cases hq : s.txq with
      | nil => cases (exec_armCTxWait_nil hq).symm.trans h; rwa [hc]
      | cons w q => cases (exec_armCTxWait_cons hq).symm.trans h; exact hzero _
    case cTxBit =>
      simp only [codecArm, exec, execArmCTxBit] at h
      split_ifs at h with hlt hb <;> cases h
      · simp only [Laws.setCodec_codec, hc, phaseEnd]
        omega
      · exact hzero _
      · obtain ⟨-, e⟩ | ⟨w, q, -, e⟩ := Laws.byteBoundary_cases s <;> rw [e] <;> exact hzero _
    case cStop =>
      simp only [codecArm, exec, execArmCStop] at h
      split_ifs at h with hlt <;> cases h
      · simp only [Laws.setCodec_codec, hc, phaseEnd]
        omega
      · exact hzero _
    case cRxHigh =>
      cases h
      split_ifs
      · exact hp
      · rwa [hc]
    case cRxArm =>
      cases h
      split_ifs
      · rwa [hc]
      · exact hzero _
    case cRxSettle =>
      simp only [codecArm, exec, execArmCRxSettle] at h
      split_ifs at h with hlt <;> cases h
      · simp only [Laws.setCodec_codec, hc, phaseEnd]
        omega
      · obtain ⟨-, e⟩ | ⟨-, e⟩ := Laws.takeSample_cases (lineIn s) s <;> rw [e] <;> exact hzero _
    case cRxPush =>
      simp only [codecArm, exec, execArmCRxPush] at h
      split_ifs at h <;> cases h
      · exact hp
      · exact hp
      · rwa [hc]

/-- Every step keeps `ph` in its range. -/
theorem step_phaseOk {s t : State} (hp : s.PhaseOk) (h : step s = .next t) : t.PhaseOk := by
  rw [phaseOk_iff]
  obtain ⟨-, rfl⟩ | ⟨-, a, b, c, ha, -, -, rfl⟩ := Laws.step_next_cases h
  · exact Nat.one_pos
  · exact (codec_arm_phase hp ha :)

end Sys2Proof.Proofs
end

section
/-! The level the peripheral puts on the line (`40_codec.md` R137): the orchestrator and the session layer never read
it, and the codec reads it only listening for an edge and in its sampling cycle. -/

namespace Sys2Proof.Proofs

open Sys2Proof.Machine

/-! ### The shared operations pass the inputs on

As for the record of the outputs, a condition that does not read the inputs is the same on both sides. -/

theorem byteBoundary_setInputs (s : State) (l : List Inputs) :
    byteBoundary (s.setInputs l) = (byteBoundary s).setInputs l := by
  simp only [byteBoundary, Laws.setInputs_txq]
  split <;> rfl

theorem collectByte_setInputs (b : Byte) (s : State) (l : List Inputs) :
    collectByte b (s.setInputs l) = (collectByte b s).setInputs l := by
  simp only [collectByte, apply_ite (State.setInputs · l)]
  rfl

theorem whenReady_setInputs {f : State → State} {l : List Inputs}
    (hf : ∀ s, f (s.setInputs l) = (f s).setInputs l) (s : State) :
    whenReady f (s.setInputs l) = (whenReady f s).setInputs l := by
  by_cases h : s.session.ss = .sIdle
  · rw [Laws.whenReady_of_ready f s h, Laws.whenReady_of_ready f (s.setInputs l) h, hf]
  · rw [Laws.whenReady_of_busy f s h, Laws.whenReady_of_busy f (s.setInputs l) h]

theorem acceptCommand_setInputs (op : BitVec 2) (arg : Bool) (s : State) (l : List Inputs) :
    acceptCommand op arg (s.setInputs l) = (acceptCommand op arg s).setInputs l := by
  unfold acceptCommand
  cases hostOp op <;> exact whenReady_setInputs (fun _ => rfl) s

/-! ### Each block's arm runs alike and passes the inputs on -/

/-- The codec states and phases in which no arm reads the line (`40_codec.md` R132, R135, R137). -/
def LineUnread (s : State) : Prop :=
  s.codec.cs = .cIdle ∨ s.codec.cs = .cTxWait ∨ s.codec.cs = .cTxBit ∨ s.codec.cs = .cStop ∨
    s.codec.cs = .cRxPush ∨ (s.codec.cs = .cRxSettle ∧ s.codec.ph < s.cfg.tSettle - 1)

theorem codec_arm_setInputs {s : State} (hs : LineUnread s) (l : List Inputs) :
    exec (codecInstr s) (s.setInputs l) = mapNext (·.setInputs l) (exec (codecInstr s) s) := by
  cases hr : restart s with
  | true =>
    rw [codecInstr, if_pos hr]
    rfl
  | false =>
    rw [codecInstr_of_not_restart hr]
    obtain hc | hc | hc | hc | hc | ⟨hc, hp⟩ := hs <;> rw [hc]
    · simp only [codecArm, exec, execArmCIdle, Laws.setInputs_txq]
      split <;> rfl
    · simp only [codecArm, exec, execArmCTxWait, Laws.setInputs_txq]
      split <;> rfl
    · simp only [codecArm, exec, execArmCTxBit, byteBoundary_setInputs, apply_ite (mapNext _)]
      rfl
    · simp only [codecArm, exec, execArmCStop, apply_ite (mapNext _)]
      rfl
    · simp only [codecArm, exec, execArmCRxPush, apply_ite (mapNext _)]
      rfl
    · rw [codecArm, exec_armCRxSettle_inside hp, exec_armCRxSettle_inside (s := s.setInputs l) hp]
      rfl

theorem orch_arm_setInputs (s : State) (l : List Inputs) :
    exec (orchInstr s) (s.setInputs l) = mapNext (·.setInputs l) (exec (orchInstr s) s) := by
  unfold orchInstr
  cases s.orch.os with
  | oIdle =>
    simp only [exec, execArmOIdle, startTransfer, apply_ite (mapNext _)]
    rfl
  | oReset => rfl
  | oCtrl =>
    simp only [exec, execArmOCtrl, apply_ite (mapNext _)]
    rfl
  | oReq =>
    simp only [exec, execArmOReq, apply_ite (mapNext _)]
    rfl
  | oCollect =>
    cases hq : s.rxq <;>
      simp only [exec, execArmOCollect, collectByte_setInputs, Laws.setInputs_rxq, hq, apply_ite (mapNext _)] <;> rfl
  | oSpace =>
    simp only [exec, execArmOSpace, apply_ite (mapNext _)]
    rfl
  | oDone => rfl

/-- Of the inputs the session layer reads the command port only. -/
theorem session_arm_setInputs {s : State} {l : List Inputs}
    (hvalid : (input (s.setInputs l)).cmdValid = (input s).cmdValid)
    (hop : (input (s.setInputs l)).cmdOp = (input s).cmdOp)
    (harg : (input (s.setInputs l)).cmdArg = (input s).cmdArg) :
    exec (sessionInstr s) (s.setInputs l) = mapNext (·.setInputs l) (exec (sessionInstr s) s) := by
  unfold sessionInstr
  cases s.session.ss with
  | sIdle =>
    simp only [exec, execArmSIdle, hvalid, hop, harg, acceptCommand_setInputs, mapNext,
      apply_ite (State.setInputs · l)]
  | sStart => rfl
  | sWait =>
    simp only [exec, execArmSWait, apply_ite (mapNext _), Laws.setInputs_session]
    cases s.session.kind <;> rfl

/-! ### The edge -/

/-- The edge consumes the inputs of the cycle, so it leaves the same whatever they were. -/
theorem edge_setInputs {s : State} {l : List Inputs} (hl : l.tail = s.inputs.tail)
    (x y z : Host.Outcome State Fault Refusal) :
    edge (s.setInputs l) (mapNext (·.setInputs l) x) (mapNext (·.setInputs l) y) (mapNext (·.setInputs l) z) =
      edge s x y z := by
  have htick (a b c : State) : tick (s.setInputs l) (mergeArms (s.setInputs l) a b c) = tick s (mergeArms s a b c) := by
    simp only [tick, Laws.setInputs_inputs, hl]
    rfl
  cases x with
  | next a => cases y with
    | next b => cases z with
      | next c => exact congrArg _ (htick _ _ _)
      | fault r => rfl
      | refused r => rfl
    | fault r => rfl
    | refused r => rfl
  | fault r => rfl
  | refused r => rfl

/-- A step whose codec does not read the line is the same with inputs that differ in the level only. -/
theorem step_setInputs {s : State} {l : List Inputs} (hu : LineUnread s) (hl : l.tail = s.inputs.tail)
    (hrst : (input (s.setInputs l)).rst = (input s).rst)
    (hvalid : (input (s.setInputs l)).cmdValid = (input s).cmdValid)
    (hop : (input (s.setInputs l)).cmdOp = (input s).cmdOp)
    (harg : (input (s.setInputs l)).cmdArg = (input s).cmdArg) : step (s.setInputs l) = step s := by
  cases hr : (input s).rst with
  | false =>
    rw [step_of_not_rst (hrst.trans hr), step_of_not_rst hr, ← edge_setInputs hl, ← codec_arm_setInputs hu,
      ← orch_arm_setInputs, ← session_arm_setInputs hvalid hop harg]
    rfl
  | true =>
    unfold step
    rw [if_pos (hrst.trans hr), if_pos hr, exec_reset, exec_reset]
    simp only [resetEdge, andThen, tick, Laws.setInputs_inputs, hl]
    rfl

/-- Settles O51: the three arms do not read the level, and under `rst` none runs. -/
theorem lineUnreadOutsideReceiving : Obligations.LineUnreadOutsideReceiving := by
  intro s i l p hs hu
  have hi : input s = i := by rw [input, inputAt, hs]; rfl
  exact step_setInputs (l := { i with periphLow := p } :: l) hu (by rw [hs]; rfl) (hi ▸ rfl) (hi ▸ rfl) (hi ▸ rfl)
    (hi ▸ rfl)

end Sys2Proof.Proofs
end

section
/-! A received slot, cycle by cycle (`40_codec.md` R130 to R135, R139, R140): the falling edge, the settling time, the
sample, the hand-over of a byte after its eighth sample, and the wait for the line to go high again. -/

namespace Sys2Proof.Proofs

open Sys2Proof.Machine

/-! ### The orchestrator at an edge -/

/-- The orchestrator's registers after an edge are those its arm left (`20_memory.md` R75). -/
theorem step_orch {s t : State} (hrst : (input s).rst = false) (h : step s = .next t) :
    ∃ b, exec (orchInstr s) s = .next b ∧ t.orch = b.orch := by
  obtain ⟨hrst', -⟩ | ⟨-, a, b, c, -, hb, -, rfl⟩ := Laws.step_next_cases h
  · simp [hrst] at hrst'
  · exact ⟨b, hb, rfl⟩

/-- The orchestrator pushes words in `O_CTRL` and `O_REQ`, into which `O_RESET` leads (`41_orchestrator.md` R164 to
R166). -/
def NothingToPush (s : State) : Prop := s.orch.os ≠ .oCtrl ∧ s.orch.os ≠ .oReq

/-- Only `O_RESET` leads to `O_CTRL`, and only through it to `O_REQ`. -/
theorem orch_arm_nothingToPush {s b : State} (hn : NothingToPush s) (hr : s.orch.os ≠ .oReset)
    (h : exec (orchInstr s) s = .next b) : NothingToPush b := by
  rw [orchInstr] at h
  cases ho : s.orch.os <;> rw [ho] at h
  case oIdle =>
    simp only [exec, execArmOIdle] at h
    split at h
    · obtain ⟨-, e⟩ | ⟨-, e⟩ := Laws.startTransfer_cases s.session.sReq s.session.sRqlen s.session.sRslen s <;>
        rw [e] at h <;> cases h
      simp [NothingToPush]
    · cases h; exact hn
  case oReset => exact absurd ho hr
  case oCtrl => exact absurd ho hn.1
  case oReq => exact absurd ho hn.2
  case oCollect =>
    simp only [exec, execArmOCollect] at h
    split at h
    · cases h; simp [NothingToPush, takeTimeout]
    · cases hq : s.rxq with
      | nil => rw [hq] at h; cases h; exact hn
      | cons y q =>
        rw [hq] at h
        cases h
        obtain ⟨-, e⟩ | ⟨-, e⟩ := Laws.collectByte_cases y s <;> simp [NothingToPush, e, ho]
  case oSpace =>
    simp only [exec, execArmOSpace] at h
    split at h <;> cases h
    · simp [NothingToPush]
    · exact hn
  case oDone => cases h; simp [NothingToPush]

/-- TXQ is empty and the orchestrator is not about to push. -/
def NothingToSend (s : State) : Prop := s.txq = [] ∧ NothingToPush s

/-- Without restart there stays nothing to send. -/
theorem step_nothingToSend {s t : State} (hs : NothingToSend s) (hrst : (input s).rst = false)
    (hr : s.orch.os ≠ .oReset) (hp : s.PhaseOk) (h : step s = .next t) : NothingToSend t := by
  obtain ⟨hq, hc, hreq⟩ := hs
  obtain ⟨b, hb, ht⟩ := step_orch hrst h
  refine ⟨?_, ?_⟩
  · have hleft : leftTx s = [] := by simp [leftTx, hq]
    have hpush : pushedTx s = [] := List.length_eq_zero_iff.mp (by simp [pushedTx_length, hc, hreq])
    rw [(step_queues hrst hp h hr).1, hleft, hpush, List.append_nil]
  · rw [NothingToPush, ht]
    exact orch_arm_nothingToPush ⟨hc, hreq⟩ hr hb

/-- At most one byte leaves RXQ in a cycle. -/
theorem leftRx_eq_or (s : State) : leftRx s = s.rxq ∨ leftRx s = s.rxq.tail := by
  unfold leftRx
  split
  · exact .inr rfl
  · exact .inl rfl

/-! ### The slot on the line -/

/-- The sample and a hand-over lie inside the slot (`93_implementation_defined.md` U2). -/
theorem tSettle_add_two_lt_tSlot (c : Config) : c.tSettle + 2 < c.tSlot := by
  obtain ⟨-, -, -, -, -, -, -, -, -, -, hmax, -⟩ := c.legal
  omega

/-- A sample is shifted in; the eighth ends the byte (R133). -/
theorem takeSample_codec (b : Bool) (s : State) : (takeSample b s).codec = { s.codec with
    ph := 0
    isr := shiftIn s.codec.isr b
    rbit := if s.codec.rbit = 7#3 then 0#3 else s.codec.rbit + 1#3
    cs := if s.codec.rbit = 7#3 then .cRxPush else .cRxHigh } := by
  obtain ⟨h7, e⟩ | ⟨h7, e⟩ := Laws.takeSample_cases b s
  · rw [e, if_pos h7, if_pos h7, Laws.setCodec_codec]
  · rw [e, if_neg h7, if_neg h7, Laws.setCodec_codec]

/-- The slot shape of `b` reaches an armed codec, and no reset and no restart comes before its end. -/
structure SlotArrives (b : Bool) (s : State) : Prop where
  startable : Startable s
  phaseOk : s.PhaseOk
  armed : s.codec.cs = .cRxArm
  no_rst : ∀ k < s.cfg.tSlot, (inputAt s k).rst = false
  no_restart : ∀ k < s.cfg.tSlot, ∀ u, cycles k s = .next u → restart u = false
  level : ∀ k < s.cfg.tSlot, (slotLevels s.cfg b)[k]? = some (!(inputAt s k).periphLow)

namespace SlotArrives

variable {b : Bool} {s : State} (h : SlotArrives b s)
include h

/-- The codec, which does not drive, sees the slot of the peripheral (R121). -/
theorem lineIn_eq {k : Nat} (hk : k < s.cfg.tSlot) {u : State} (hu : cycles k s = .next u)
    (hd : driveLow u = false) : lineIn u = decide (tLow s.cfg b ≤ k) := by
  have hl := h.level k hk
  rw [getElem?_slotLevels hk] at hl
  rw [lineIn, hd, cycles_input hu, Bool.false_or, Option.some.inj hl]

/-- One cycle of the slot makes of the codec's registers what the arm of its state makes of them. -/
theorem step_codec {k : Nat} (hk : k < s.cfg.tSlot) {u t a : State} (hu : cycles k s = .next u)
    (c : CState) (hc : u.codec.cs = c) (ht : cycles (k + 1) s = .next t) (ha : exec (codecArm c) u = .next a) :
    t.codec = a.codec :=
  step_codec_of_arm (cycles_input hu ▸ h.no_rst k hk) (h.no_restart k hk u hu) hc (cycles_succ_of_next hu ▸ ht) ha

/-- One cycle of the slot is a step without reset and restart, with `ph` in its range. -/
theorem step_of_cycles {k : Nat} (hk : k < s.cfg.tSlot) {u t : State} (hu : cycles k s = .next u)
    (ht : cycles (k + 1) s = .next t) :
    (input u).rst = false ∧ u.orch.os ≠ .oReset ∧ u.PhaseOk ∧ step u = .next t := by
  refine ⟨cycles_input hu ▸ h.no_rst k hk, fun ho => ?_, cycles_keeps step_phaseOk h.phaseOk hu,
    cycles_succ_of_next hu ▸ ht⟩
  exact absurd ((Laws.restart_iff u).mpr ho) (by rw [h.no_restart k hk u hu]; exact Bool.false_ne_true)

/-! ### The falling edge and the sample -/

/-- From the falling edge on `ph` counts the settling time (R131, R132). -/
theorem codec_settling {k : Nat} (hk : k < s.cfg.tSettle) {t : State} (ht : cycles (k + 1) s = .next t) :
    t.codec = { s.codec with cs := .cRxSettle, ph := k } := by
  have hlt := tSettle_add_two_lt_tSlot s.cfg
  induction k generalizing t with
  | zero =>
    have hpos : 0 < tLow s.cfg b := by
      obtain ⟨-, -, -, -, hshort, hss, hsl, -⟩ := s.cfg.legal
      cases b <;> simp only [tLow, if_true, if_false, Bool.false_eq_true] <;> omega
    have hline := h.lineIn_eq (by omega) (cycles_zero s)
      (driveLow_of_not_sending (by simp [h.armed]) (by simp [h.armed]))
    rw [h.step_codec (by omega) (cycles_zero s) _ h.armed ht
      (exec_armCRxArm_low (by rw [hline]; simpa using hpos.ne')), Laws.setCodec_codec]
  | succ k ih =>
    obtain ⟨u, hu⟩ := cycles_next_of_startable h.startable (k + 1)
    have hcodec := ih (by omega) hu
    have hph : u.codec.ph < u.cfg.tSettle - 1 := by rw [hcodec, cycles_cfg hu]; exact Nat.lt_sub_of_add_lt hk
    rw [h.step_codec (by omega) hu .cRxSettle (by rw [hcodec]) ht (exec_armCRxSettle_inside hph),
      Laws.setCodec_codec, hcodec]

/-- In its last settling cycle the codec takes `b` (R133; `30_encoding.md` R94). -/
theorem codec_sampled {t : State} (ht : cycles (s.cfg.tSettle + 1) s = .next t) :
    t.codec = { s.codec with
      ph := 0
      isr := shiftIn s.codec.isr b
      rbit := if s.codec.rbit = 7#3 then 0#3 else s.codec.rbit + 1#3
      cs := if s.codec.rbit = 7#3 then .cRxPush else .cRxHigh } := by
  have hlt := tSettle_add_two_lt_tSlot s.cfg
  obtain ⟨-, -, -, -, -, hpos, -⟩ := s.cfg.legal
  obtain ⟨n, hn⟩ := Nat.exists_eq_add_one.mpr (Nat.zero_lt_of_lt hpos)
  obtain ⟨u, hu⟩ := cycles_next_of_startable h.startable s.cfg.tSettle
  have hcodec := h.codec_settling (k := n) (by omega) (hn ▸ hu)
  have hph : u.codec.ph = u.cfg.tSettle - 1 := by rw [hcodec, cycles_cfg hu, hn]; rfl
  have hline : lineIn u = b := by
    rw [h.lineIn_eq (by omega) hu (driveLow_of_not_sending (by simp [hcodec]) (by simp [hcodec]))]
    exact Option.some.inj ((getElem?_slotLevels (by omega) b).symm.trans (slotLevels_tSettle s.cfg b))
  rw [h.step_codec (by omega) hu .cRxSettle (by rw [hcodec]) ht (exec_armCRxSettle_last hph), hline, takeSample_codec,
    hcodec]

/-! ### The wait for a high line -/

/-- A codec that waits for a high line from cycle `j` on is armed once the low part is over (R130), and stays armed
until the slot ends (R131). -/
theorem codec_waiting {c : Codec} (hc : c.cs = .cRxHigh) {j : Nat} {u : State} (hu : cycles j s = .next u)
    (huc : u.codec = c) {k : Nat} (hjk : j ≤ k) (hk : k ≤ s.cfg.tSlot) {t : State} (ht : cycles k s = .next t) :
    t.codec = { c with cs := if k ≤ max j (tLow s.cfg b) then .cRxHigh else .cRxArm } := by
  induction k, hjk using Nat.le_induction generalizing t with
  | base =>
    obtain rfl : u = t := Host.Outcome.next.inj (hu.symm.trans ht)
    rw [huc, if_pos (le_max_left _ _), ← hc]
  | succ k hjk ih =>
    have hk' : k < s.cfg.tSlot := hk
    obtain ⟨v, hv⟩ := cycles_next_of_startable h.startable k
    have hcodec := ih hk'.le hv
    by_cases hwait : k ≤ max j (tLow s.cfg b)
    · rw [if_pos hwait] at hcodec
      have hline := h.lineIn_eq hk' hv (driveLow_of_not_sending (by simp [hcodec]) (by simp [hcodec]))
      by_cases hend : tLow s.cfg b ≤ k
      · have hhigh : lineIn v = true := by rw [hline]; exact decide_eq_true hend
        rw [h.step_codec hk' hv .cRxHigh (by rw [hcodec]) ht (exec_armCRxHigh_high hhigh), if_neg (by omega),
          Laws.setCodec_codec, hcodec]
      · have hlow : ¬ lineIn v = true := by rw [hline]; simpa using hend
        rw [h.step_codec hk' hv .cRxHigh (by rw [hcodec]) ht (exec_armCRxHigh_low hlow), if_pos (by omega), hcodec]
    · rw [if_neg hwait] at hcodec
      have hline := h.lineIn_eq hk' hv (driveLow_of_not_sending (by simp [hcodec]) (by simp [hcodec]))
      have hhigh : lineIn v = true := by rw [hline]; exact decide_eq_true (by omega)
      rw [h.step_codec hk' hv .cRxArm (by rw [hcodec]) ht (exec_armCRxArm_high hhigh), if_neg (by omega), hcodec]

/-- A codec that waits for a high line right after the sample or the hand-over is armed at the end of the slot. -/
theorem codec_rearmed {j : Nat} (hj : j ≤ s.cfg.tSettle + 2) {u : State} (hu : cycles j s = .next u)
    (hc : u.codec.cs = .cRxHigh) {t : State} (ht : cycles s.cfg.tSlot s = .next t) :
    t.codec = { u.codec with cs := .cRxArm } := by
  have hlt := tSettle_add_two_lt_tSlot s.cfg
  have hlow : tLow s.cfg b < s.cfg.tSlot := by
    obtain ⟨-, -, -, -, -, hss, hsl, hl, -⟩ := s.cfg.legal
    cases b <;> simp only [tLow, if_true, if_false, Bool.false_eq_true] <;> omega
  rw [h.codec_waiting hc hu rfl (by omega) le_rfl ht, if_neg (by omega)]

/-! ### The hand-over -/

/-- Until the hand-over the codec pushes nothing, so RXQ does not grow. -/
theorem rxq_length_le {k : Nat} (hk : k ≤ s.cfg.tSettle + 1) {t : State} (ht : cycles k s = .next t) :
    t.rxq.length ≤ s.rxq.length := by
  have hlt := tSettle_add_two_lt_tSlot s.cfg
  induction k generalizing t with
  | zero => cases ht; exact le_rfl
  | succ k ih =>
    obtain ⟨u, hu⟩ := cycles_next_of_startable h.startable k
    obtain ⟨hrst, hr, hp, hstep⟩ := h.step_of_cycles (by omega) hu ht
    have hcs : u.codec.cs ≠ .cRxPush := by
      cases k with
      | zero => cases hu; simp [h.armed]
      | succ n => simp [h.codec_settling (by omega) hu]
    have hpush : pushedRx u = [] := by simp [pushedRx, hcs]
    rw [(step_queues hrst hp hstep hr).2, hpush, List.append_nil]
    refine le_trans ?_ (ih (by omega) hu)
    obtain e | e := leftRx_eq_or u <;> simp [e]

/-- `T_SETTLE + 2` cycles after the falling edge the byte stands at the young end of RXQ (R134). -/
theorem rxq_pushed (hb : s.codec.rbit = 7#3) (hroom : s.rxq.length < s.cfg.qdRx) {v u : State}
    (hv : cycles (s.cfg.tSettle + 1) s = .next v) (hu : cycles (s.cfg.tSettle + 2) s = .next u) :
    u.rxq = leftRx v ++ [shiftIn s.codec.isr b] := by
  obtain ⟨hrst, hr, hp, hstep⟩ := h.step_of_cycles (Nat.lt_of_succ_lt (tSettle_add_two_lt_tSlot s.cfg)) hv hu
  have hlen : v.rxq.length < v.cfg.qdRx := cycles_cfg hv ▸ (h.rxq_length_le le_rfl hv).trans_lt hroom
  have hpush : pushedRx v = [shiftIn s.codec.isr b] := by simp [pushedRx, hlen, h.codec_sampled hv, hb]
  rw [(step_queues hrst hp hstep hr).2, hpush]

/-- After the last byte of a response the codec is idle, with more to come it waits for a high line (R134). -/
theorem codec_pushed (hb : s.codec.rbit = 7#3) (hroom : s.rxq.length < s.cfg.qdRx) {u : State}
    (hu : cycles (s.cfg.tSettle + 2) s = .next u) :
    (s.codec.rxn = 0#5 → u.codec.cs = .cIdle) ∧
    (s.codec.rxn ≠ 0#5 → u.codec.cs = .cRxHigh ∧ u.codec.rbit = 0#3 ∧ u.codec.rxn = s.codec.rxn - 1#5) := by
  have hlt := Nat.lt_of_succ_lt (tSettle_add_two_lt_tSlot s.cfg)
  obtain ⟨v, hv⟩ := cycles_next_of_startable h.startable (s.cfg.tSettle + 1)
  have hlen : v.rxq.length < v.cfg.qdRx := cycles_cfg hv ▸ (h.rxq_length_le le_rfl hv).trans_lt hroom
  have hcodec := h.codec_sampled hv
  rw [if_pos hb, if_pos hb] at hcodec
  have hrxn : v.codec.rxn = s.codec.rxn := by rw [hcodec]
  constructor
  · intro hn
    rw [h.step_codec hlt hv .cRxPush (by rw [hcodec]) hu (exec_armCRxPush_last hlen (hrxn.trans hn)),
      Laws.setCodec_codec]
  · intro hn
    rw [h.step_codec hlt hv .cRxPush (by rw [hcodec]) hu (exec_armCRxPush_more hlen (hrxn ▸ hn)),
      Laws.setCodec_codec, hcodec]
    exact ⟨rfl, rfl, rfl⟩

/-- With nothing to send from the start there is nothing to send until the slot ends. -/
theorem nothingToSend (hs : NothingToSend s) {k : Nat} (hk : k ≤ s.cfg.tSlot) {t : State}
    (ht : cycles k s = .next t) : NothingToSend t := by
  induction k generalizing t with
  | zero => cases ht; exact hs
  | succ k ih =>
    obtain ⟨u, hu⟩ := cycles_next_of_startable h.startable k
    obtain ⟨hrst, hr, hp, hstep⟩ := h.step_of_cycles hk hu ht
    exact step_nothingToSend (ih (Nat.le_of_succ_le hk) hu) hrst hr hp hstep

/-- An idle codec with nothing to send stays idle until the slot ends (R124). -/
theorem stays_idle (hs : NothingToSend s) {j : Nat} {u : State} (hu : cycles j s = .next u)
    (hc : u.codec.cs = .cIdle) {k : Nat} (hjk : j ≤ k) (hk : k ≤ s.cfg.tSlot) {t : State}
    (ht : cycles k s = .next t) : t.codec.cs = .cIdle := by
  induction k, hjk using Nat.le_induction generalizing t with
  | base =>
    cases hu.symm.trans ht
    exact hc
  | succ k hjk ih =>
    obtain ⟨v, hv⟩ := cycles_next_of_startable h.startable k
    have hcs := ih (Nat.le_of_succ_le hk) hv
    obtain ⟨hq, -⟩ := h.nothingToSend hs (Nat.le_of_succ_le hk) hv
    rw [h.step_codec hk hv .cIdle hcs ht (exec_armCIdle_nil hq), hcs]

end SlotArrives

/-- Settles O57: the sample is `b` in every slot; after the eighth the byte is handed over; then the codec waits for the
end of the low part, or is idle. -/
theorem slotReceived : Obligations.SlotReceived := by
  intro s b hinv hc hrst hres hlevel
  have hs := startable_of_inv hinv
  obtain ⟨-, hphase, -⟩ := hinv
  have h : SlotArrives b s := ⟨hs, hphase, hc, hrst, hres, hlevel⟩
  have hlt := tSettle_add_two_lt_tSlot s.cfg
  obtain ⟨v, hv⟩ := cycles_next_of_startable h.startable (s.cfg.tSettle + 1)
  obtain ⟨u, hu⟩ := cycles_next_of_startable h.startable (s.cfg.tSettle + 2)
  obtain ⟨t, ht⟩ := cycles_next_of_startable h.startable s.cfg.tSlot
  have hcodec := h.codec_sampled hv
  constructor
  · intro hb
    have h7 : s.codec.rbit ≠ 7#3 := fun e => by simp [e] at hb
    rw [if_neg h7, if_neg h7] at hcodec
    have hrearmed := h.codec_rearmed (Nat.le_succ _) hv (by rw [hcodec]) ht
    rw [hcodec] at hrearmed
    exact ⟨t, ht, by rw [hrearmed], by rw [hrearmed]; rfl, by rw [hrearmed], by rw [hrearmed]⟩
  · intro hb hroom
    obtain ⟨hlast, hmore⟩ := h.codec_pushed hb hroom hu
    have hpush : v.codec.cs = .cRxPush := by rw [hcodec, if_pos hb]
    refine ⟨v, u, t, hv, hu, ht, hpush, ?_, fun hn => ?_, fun hn => ⟨hlast hn, fun hq ho ho' => ?_⟩⟩
    · rw [h.rxq_pushed hb hroom hv hu]
      obtain e | e := leftRx_eq_or v <;> rw [e]
      · exact .inl rfl
      · exact .inr rfl
    · obtain ⟨hcs, hrbit, hrxn⟩ := hmore hn
      rw [h.codec_rearmed le_rfl hu hcs ht, hrbit, hrxn]
      exact ⟨rfl, rfl, toNat_sub_one_add_one hn⟩
    · exact h.stays_idle ⟨hq, ho, ho'⟩ hu (hlast hn) hlt.le le_rfl ht

end Sys2Proof.Proofs
end

section
/-! A whole request on the wire (`40_codec.md` R138, `41_orchestrator.md` R171). The levels the codec has still to leave
on the line are a function of the state, `wireRest`; while a request is streamed, the level of each cycle is the head of
it and the next state has the tail. -/

namespace Sys2Proof.Proofs

open Sys2Proof.Machine

/-! ### The words still to be sent -/

/-- The data words of the request bytes the orchestrator has still to push (`41_orchestrator.md` R166). -/
def unpushed (o : Orch) : List TxWord :=
  if o.os = .oReq then ((o.rq.take o.rqlen).drop o.idx).map dataWord else []

/-- The words the codec has still to take: those in TXQ, and behind them those not yet pushed. -/
def pendingTx (s : State) : List TxWord := s.txq ++ unpushed s.orch

theorem unpushed_of_oCollect {o : Orch} (h : o.os = .oCollect) : unpushed o = [] := by
  simp [unpushed, h]

/-- The next word to push is that of request byte `idx`. -/
theorem unpushed_of_oReq {o : Orch} (h : o.os = .oReq) (hidx : o.idx < o.rqlen) (hlen : o.rqlen ≤ o.rq.length) :
    unpushed o = dataWord (requestByte o) :: ((o.rq.take o.rqlen).drop (o.idx + 1)).map dataWord := by
  have hget : (o.rq.take o.rqlen)[o.idx]? = some (requestByte o) := by
    simp [hidx, requestByte, Nat.lt_of_lt_of_le hidx hlen]
  rw [unpushed, if_pos h, List.drop_eq_getElem?_toList_append, hget]
  rfl

/-! ### The orchestrator while it streams and collects -/

/-- The codec takes a word in this cycle, if TXQ has one (R124, R125, R128). -/
def TakesWord (s : State) : Prop :=
  s.codec.cs = .cIdle ∨ s.codec.cs = .cTxWait ∨
    (s.codec.cs = .cTxBit ∧ s.codec.ph = s.cfg.tSlot - 1 ∧ s.codec.bitc = 7#3)

theorem leftTx_of_takesWord {s : State} (h : TakesWord s) : leftTx s = s.txq.tail := if_pos h

theorem leftTx_of_not_takesWord {s : State} (h : ¬ TakesWord s) : leftTx s = s.txq := if_neg h

/-- The orchestrator streams a request, or has streamed it and still waits for the first response byte, for fewer than
`n` cycles; RXQ is empty. -/
structure Requesting (n : Nat) (s : State) : Prop where
  startable : Startable s
  phaseOk : s.PhaseOk
  rxq_nil : s.rxq = []
  os_cases : s.orch.os = .oReq ∨ s.orch.os = .oCollect
  rqlen_le : s.orch.rqlen ≤ s.orch.rq.length
  idx_lt : s.orch.os = .oReq → s.orch.idx < s.orch.rqlen
  tmr_lt : s.orch.os = .oCollect → s.orch.tmr < n

theorem Requesting.not_restart {n : Nat} {s : State} (h : Requesting n s) : s.orch.os ≠ .oReset := by
  obtain ho | ho := h.os_cases <;> simp [ho]

theorem Requesting.restart_eq_false {n : Nat} {s : State} (h : Requesting n s) : restart s = false := by
  simpa [restart] using h.not_restart

/-- In `O_REQ` the orchestrator pushes the next word if there is room, and goes on to `O_COLLECT` after the last
(`41_orchestrator.md` R166). -/
theorem oReq_orch {s b : State} (ho : s.orch.os = .oReq) (hidx : s.orch.idx < s.orch.rqlen)
    (hlen : s.orch.rqlen ≤ s.orch.rq.length) (h : exec (orchInstr s) s = .next b) :
    b.orch.rq = s.orch.rq ∧ b.orch.rqlen = s.orch.rqlen ∧
    ((b.orch.os = .oReq ∧ b.orch.idx < b.orch.rqlen) ∨ (b.orch.os = .oCollect ∧ b.orch.tmr = 0)) ∧
    pushedTx s ++ unpushed b.orch = unpushed s.orch := by
  have hun := unpushed_of_oReq ho hidx hlen
  rw [orchInstr, ho] at h
  simp only [exec, execArmOReq, Laws.txNotFull_iff] at h
  split_ifs at h with hroom hlast
  · cases h
    have hend : ((s.orch.rq.take s.orch.rqlen).drop (s.orch.idx + 1)) = [] := by simp; omega
    rw [hend] at hun
    refine ⟨rfl, rfl, .inr ⟨rfl, rfl⟩, ?_⟩
    rw [pushedTx_oReq ho hroom, hun, unpushed_of_oCollect rfl]
    rfl
  · cases h
    refine ⟨rfl, rfl, .inl ⟨ho, ?_⟩, ?_⟩
    · change s.orch.idx + 1 < s.orch.rqlen
      omega
    · rw [pushedTx_oReq ho hroom, hun, unpushed]
      exact congrArg (List.cons _) (if_pos ho)
  · cases h
    have hpush : pushedTx s = [] := if_neg hroom
    exact ⟨rfl, rfl, .inl ⟨ho, hidx⟩, by rw [hpush, List.nil_append]⟩

/-- In `O_COLLECT`, with no byte in RXQ and before the timeout, `tmr` counts (`41_orchestrator.md` R169). -/
theorem oCollect_orch {s b : State} (ho : s.orch.os = .oCollect) (hq : s.rxq = [])
    (ht : s.orch.tmr ≠ timeoutCycles s.cfg) (h : exec (orchInstr s) s = .next b) :
    b.orch = { s.orch with tmr := s.orch.tmr + 1 } := by
  rw [orchInstr, ho] at h
  simp only [exec, execArmOCollect, ht, hq, if_false] at h
  cases h
  rfl

/-- Before the timeout a step without reset goes on streaming or waiting, and only the codec takes words. -/
theorem Requesting.step {n : Nat} {s t : State} (h : Requesting n s) (hn : n ≤ timeoutCycles s.cfg)
    (hcs : s.codec.cs ≠ .cRxPush) (hrst : (input s).rst = false) (hst : step s = .next t) :
    Requesting (n + 1) t ∧ pendingTx t = leftTx s ++ unpushed s.orch := by
  obtain ⟨htx, hrx⟩ := step_queues hrst h.phaseOk hst h.not_restart
  obtain ⟨b, hb, ht⟩ := step_orch hrst hst
  have hleft : leftRx s = [] := by obtain e | e := leftRx_eq_or s <;> simp [e, h.rxq_nil]
  have hpush : pushedRx s = [] := by simp [pushedRx, hcs]
  have hrxq : t.rxq = [] := by rw [hrx, hleft, hpush, List.append_nil]
  have hs := step_startable h.startable hst
  have hp := step_phaseOk h.phaseOk hst
  rw [pendingTx, htx, List.append_assoc]
  obtain ho | ho := h.os_cases
  · obtain ⟨hrq, hrqlen, hos, hun⟩ := oReq_orch ho (h.idx_lt ho) h.rqlen_le hb
    rw [← ht] at hrq hrqlen hos hun
    refine ⟨⟨hs, hp, hrxq, hos.imp And.left And.left, by rw [hrq, hrqlen]; exact h.rqlen_le, fun ho' => ?_,
      fun ho' => ?_⟩, by rw [hun]⟩
    · obtain ⟨-, hidx⟩ | ⟨hc, -⟩ := hos
      · exact hidx
      · simp [hc] at ho'
    · obtain ⟨hc, -⟩ | ⟨-, htmr⟩ := hos
      · simp [hc] at ho'
      · exact htmr ▸ Nat.succ_pos n
  · have htmr := h.tmr_lt ho
    have horch := ht.trans (oCollect_orch ho h.rxq_nil (htmr.trans_le hn).ne hb)
    have ho' : t.orch.os = .oCollect := by rw [horch, ho]
    have hnone : pushedTx s = [] := List.length_eq_zero_iff.mp (by simp [pushedTx_length, ho])
    refine ⟨⟨hs, hp, hrxq, .inr ho', by rw [horch]; exact h.rqlen_le, fun hr => ?_, fun _ => ?_⟩, ?_⟩
    · simp [ho'] at hr
    · rw [horch]
      exact Nat.succ_lt_succ htmr
    · rw [hnone, unpushed_of_oCollect ho, unpushed_of_oCollect ho', List.nil_append]

/-- Only a codec that takes a word finds TXQ empty in the next cycle while words are still to be pushed
(`41_orchestrator.md` R171). -/
theorem Requesting.takes_word_of_txq_nil {n : Nat} {s t : State} (h : Requesting n s) (ho : s.orch.os = .oReq)
    (hrst : (input s).rst = false) (hst : Machine.step s = .next t) (hq : t.txq = []) :
    TakesWord s := by
  rw [(step_queues hrst h.phaseOk hst h.not_restart).1, List.append_eq_nil_iff] at hq
  obtain ⟨hleft, hpush⟩ := hq
  by_contra hnot
  rw [leftTx_of_not_takesWord hnot] at hleft
  obtain ⟨-, hdepth, -⟩ := s.cfg.legal
  rw [pushedTx_oReq ho (by rw [hleft]; exact hdepth)] at hpush
  cases hpush

/-! ### The levels still to come -/

/-- The bits of `osr` not yet sent, the current one first (R127). -/
def osrBits (x : Codec) : List Bool := (List.range (8 - x.bitc.toNat)).map fun j => x.osr.getLsbD (31 - j)

/-- The levels of the eight slots of a TXQ word. -/
def wordLevels (c : Config) (w : TxWord) : List Bool :=
  ((List.range 8).map fun j => w.getLsbD (31 - j)).flatMap (slotLevels c)

/-- The levels the codec has still to leave on the line, from the current cycle on: the rest of its byte, the words to
come, STOP. -/
def wireRest (s : State) : List Bool :=
  match s.codec.cs with
  | .cTxBit => ((osrBits s.codec).flatMap (slotLevels s.cfg)).drop s.codec.ph ++
      ((pendingTx s).flatMap (wordLevels s.cfg) ++ stopLevels s.cfg)
  | .cStop => (stopLevels s.cfg).drop s.codec.ph
  | .cIdle | .cTxWait | .cRxHigh | .cRxArm | .cRxSettle | .cRxPush => []

theorem wireRest_cTxBit {s : State} (hc : s.codec.cs = .cTxBit) :
    wireRest s = ((osrBits s.codec).flatMap (slotLevels s.cfg)).drop s.codec.ph ++
      ((pendingTx s).flatMap (wordLevels s.cfg) ++ stopLevels s.cfg) := by
  simp only [wireRest, hc]

theorem wireRest_cStop {s : State} (hc : s.codec.cs = .cStop) :
    wireRest s = (stopLevels s.cfg).drop s.codec.ph := by
  simp only [wireRest, hc]

theorem wireRest_cRxHigh {s : State} (hc : s.codec.cs = .cRxHigh) : wireRest s = [] := by
  simp only [wireRest, hc]

/-- The levels of a data word are those of its byte (`30_encoding.md` R97, `20_memory.md` R68). -/
theorem wordLevels_dataWord (c : Config) (y : Byte) : wordLevels c (dataWord y) = byteLevels c y := by
  have hbits : ((List.range 8).map fun j => (dataWord y).getLsbD (31 - j)) = bitsMsbFirst y := by
    refine List.map_congr_left fun j hj => ?_
    have hj8 : j < 8 := List.mem_range.mp hj
    rw [dataWord, BitVec.getLsbD_append, if_neg (by omega)]
    congr 1
    omega
  rw [wordLevels, hbits, byteLevels]

/-- The bit sent is bit 31, and the bits behind it are those after the shift. -/
theorem osrBits_of_lt {x : Codec} (h : x.bitc < 7#3) :
    osrBits x = x.osr.getLsbD 31 :: osrBits { x with osr := x.osr <<< 1, bitc := x.bitc + 1#3, ph := 0 } := by
  have hlt : x.bitc.toNat < 7 := h
  have hnext : (x.bitc + 1#3).toNat = x.bitc.toNat + 1 := by
    rw [BitVec.toNat_add]
    exact Nat.mod_eq_of_lt (Nat.succ_lt_succ hlt)
  have hlen : 8 - x.bitc.toNat = (8 - (x.bitc.toNat + 1)) + 1 := by omega
  rw [osrBits, hlen, List.range_succ_eq_map, List.map_cons, List.map_map, osrBits, hnext]
  refine congrArg₂ _ rfl (List.map_congr_left fun j hj => ?_)
  have hj7 := List.mem_range.mp hj
  rw [Function.comp_apply, BitVec.getLsbD_shiftLeft]
  have h32 : 31 - j < 32 := by omega
  have h1 : ¬ 31 - j < 1 := by omega
  simp only [h32, h1, decide_true, decide_false, Bool.true_and, Bool.not_false]
  rfl

/-- In the eighth slot the bit sent is the last. -/
theorem osrBits_of_eq {x : Codec} (h : x.bitc = 7#3) : osrBits x = [x.osr.getLsbD 31] := by
  rw [osrBits, h]
  rfl

/-- The bit sent comes first. -/
theorem osrBits_eq_cons (x : Codec) : ∃ l, osrBits x = x.osr.getLsbD 31 :: l := by
  by_cases h : x.bitc < 7#3
  · exact ⟨_, osrBits_of_lt h⟩
  · exact ⟨[], osrBits_of_eq (by bv_omega)⟩

/-- The level at `i` comes before the rest. -/
theorem drop_eq_cons_of_getElem? {l : List Bool} {i : Nat} {x : Bool} (h : l[i]? = some x) :
    l.drop i = x :: l.drop (i + 1) := by
  rw [List.drop_eq_getElem?_toList_append, h]
  rfl

/-- While a slot is sent the level of the cycle comes first, then the rest of the slot and the slots behind it. -/
theorem drop_osrBits {s : State} (hc : s.codec.cs = .cTxBit) (hp : s.codec.ph < s.cfg.tSlot) :
    ((osrBits s.codec).flatMap (slotLevels s.cfg)).drop s.codec.ph =
      (!driveLow s) :: ((osrBits s.codec).flatMap (slotLevels s.cfg)).drop (s.codec.ph + 1) := by
  obtain ⟨l, hl⟩ := osrBits_eq_cons s.codec
  apply drop_eq_cons_of_getElem?
  rw [hl, List.flatMap_cons, List.getElem?_append_left (by rw [length_slotLevels]; exact hp),
    getElem?_slotLevels_ph hc hp]

/-- After the last cycle of a slot come the slots of the bits behind it. -/
theorem drop_tSlot_flatMap (c : Config) (b : Bool) (l : List Bool) :
    ((b :: l).flatMap (slotLevels c)).drop c.tSlot = l.flatMap (slotLevels c) := by
  rw [List.flatMap_cons, List.drop_append_of_le_length (length_slotLevels c b).ge,
    List.drop_eq_nil_of_le (length_slotLevels c b).le, List.nil_append]

/-! ### Streaming -/

/-- The codec sends the request, or has sent it; in the eighth slot of a byte every next word is visible in TXQ
(`41_orchestrator.md` R171). -/
structure Streams (n : Nat) (s : State) : Prop extends Requesting n s where
  cs_cases : s.codec.cs = .cTxBit ∨ s.codec.cs = .cStop ∨ s.codec.cs = .cRxHigh
  visible : s.codec.bitc = 7#3 → s.txq = [] → unpushed s.orch = []

/-- The first cycle of a byte: the word is in `osr`, and all its eight slots are still to come. -/
theorem wireRest_of_takeData {s t : State} {w : TxWord} (hcfg : t.cfg = s.cfg)
    (hcodec : t.codec = (takeData w s).codec) :
    wireRest t = (w :: pendingTx t).flatMap (wordLevels s.cfg) ++ stopLevels s.cfg := by
  rw [Laws.takeData_codec] at hcodec
  rw [wireRest_cTxBit (by rw [hcodec]), hcfg, hcodec, List.flatMap_cons, List.append_assoc]
  rfl

/-- With a codec that takes no word, TXQ empty means that every word has been pushed. -/
theorem Requesting.unpushed_nil {n : Nat} {s t : State} (h : Requesting n s) (hw : ¬ TakesWord s)
    (hpend : pendingTx t = leftTx s ++ unpushed s.orch) (hrst : (input s).rst = false)
    (hst : Machine.step s = .next t) (hq : t.txq = []) : unpushed t.orch = [] := by
  obtain ho | ho := h.os_cases
  · exact absurd (h.takes_word_of_txq_nil ho hrst hst hq) hw
  · have hleft := (step_queues hrst h.phaseOk hst h.not_restart).1
    rw [hq, eq_comm, List.append_eq_nil_iff] at hleft
    rwa [pendingTx, hq, List.nil_append, hleft.1, unpushed_of_oCollect ho] at hpend

/-- While a request is sent the level of the cycle comes first; behind it come the rest of the byte, the words and
STOP. -/
theorem wireRest_cTxBit_eq_cons {s : State} (hc : s.codec.cs = .cTxBit) (hp : s.codec.ph < s.cfg.tSlot) :
    wireRest s = (!driveLow s) :: (((osrBits s.codec).flatMap (slotLevels s.cfg)).drop (s.codec.ph + 1) ++
      ((pendingTx s).flatMap (wordLevels s.cfg) ++ stopLevels s.cfg)) := by
  rw [wireRest_cTxBit hc, drop_osrBits hc hp, List.cons_append]

/-- In STOP the level of the cycle is low, and comes before the rest of STOP. -/
theorem wireRest_cStop_eq_cons {s : State} (hc : s.codec.cs = .cStop) (hp : s.codec.ph < s.cfg.tStopLow) :
    wireRest s = (!driveLow s) :: (stopLevels s.cfg).drop (s.codec.ph + 1) := by
  rw [wireRest_cStop hc]
  apply drop_eq_cons_of_getElem?
  rw [stopLevels, List.getElem?_replicate_of_lt hp, (driveLow_iff s).mpr (.inl hc)]
  rfl

/-- In the last cycle of a byte the next word follows with no gap, or STOP when every word has been sent (R128). -/
theorem Streams.step_boundary {n : Nat} {s t : State} (h : Streams n s) (hc : s.codec.cs = .cTxBit)
    (hlast : s.codec.ph = s.cfg.tSlot - 1) (h7 : s.codec.bitc = 7#3) (hn : n ≤ timeoutCycles s.cfg)
    (hrst : (input s).rst = false) (hst : Machine.step s = .next t) :
    Streams (n + 1) t ∧ wireRest s = (!driveLow s) :: wireRest t := by
  have hp : s.codec.ph < s.cfg.tSlot := h.phaseOk.1 hc
  have hend : s.codec.ph + 1 = s.cfg.tSlot := by omega
  obtain ⟨hreq, hpend⟩ := h.toRequesting.step hn (by simp [hc]) hrst hst
  have hcfg := step_cfg hst
  rw [leftTx_of_takesWord (.inr (.inr ⟨hc, hlast, h7⟩))] at hpend
  have hcodec := step_codec_cTxBit hrst h.restart_eq_false hc hst (exec_armCTxBit_boundary hlast h7)
  rw [wireRest_cTxBit_eq_cons hc hp, osrBits_of_eq h7, hend, drop_tSlot_flatMap, List.flatMap_nil, List.nil_append]
  cases hq : s.txq with
  | nil =>
    rw [byteBoundary_nil hq, Laws.setCodec_codec] at hcodec
    have hc' : t.codec.cs = .cStop := by rw [hcodec]
    have hnone : pendingTx s = [] := by rw [pendingTx, hq, h.visible h7 hq]; rfl
    refine ⟨⟨hreq, .inr (.inl hc'), fun h7' => ?_⟩, ?_⟩
    · simp [hcodec] at h7'
    · rw [wireRest_cStop hc', hcfg, hcodec, hnone]
      rfl
  | cons w q =>
    rw [byteBoundary_cons hq] at hcodec
    have hall : pendingTx s = w :: pendingTx t := by rw [hpend, pendingTx, hq]; rfl
    refine ⟨⟨hreq, .inl (by rw [hcodec]; rfl), fun h7' => ?_⟩, ?_⟩
    · simp [hcodec] at h7'
    · rw [wireRest_of_takeData hcfg hcodec, hall]

/-- A step in `C_TXBIT` goes on streaming, and the levels to come lose their head (R126, R127). -/
theorem Streams.step_cTxBit {n : Nat} {s t : State} (h : Streams n s) (hc : s.codec.cs = .cTxBit)
    (hn : n ≤ timeoutCycles s.cfg) (hrst : (input s).rst = false) (hst : Machine.step s = .next t) :
    Streams (n + 1) t ∧ wireRest s = (!driveLow s) :: wireRest t := by
  have hp : s.codec.ph < s.cfg.tSlot := h.phaseOk.1 hc
  obtain hin | hlast : s.codec.ph < s.cfg.tSlot - 1 ∨ s.codec.ph = s.cfg.tSlot - 1 := by omega
  · obtain ⟨hreq, hpend⟩ := h.toRequesting.step hn (by simp [hc]) hrst hst
    have hw : ¬ TakesWord s := by simp [TakesWord, hc, hin.ne]
    have hcodec := step_codec_cTxBit hrst h.restart_eq_false hc hst (exec_armCTxBit_inside hin)
    rw [Laws.setCodec_codec] at hcodec
    have hc' : t.codec.cs = .cTxBit := by rw [hcodec, hc]
    refine ⟨⟨hreq, .inl hc', fun _ => h.unpushed_nil hw hpend hrst hst⟩, ?_⟩
    rw [wireRest_cTxBit_eq_cons hc hp, wireRest_cTxBit hc', step_cfg hst, hcodec, hpend, leftTx_of_not_takesWord hw]
    rfl
  obtain hb | h7 : s.codec.bitc < 7#3 ∨ s.codec.bitc = 7#3 := by bv_omega
  · obtain ⟨hreq, hpend⟩ := h.toRequesting.step hn (by simp [hc]) hrst hst
    have h7 : s.codec.bitc ≠ 7#3 := by bv_omega
    have hw : ¬ TakesWord s := by simp [TakesWord, hc, h7]
    have hend : s.codec.ph + 1 = s.cfg.tSlot := by omega
    have hcodec := step_codec_cTxBit hrst h.restart_eq_false hc hst (exec_armCTxBit_nextSlot hlast hb)
    rw [Laws.setCodec_codec] at hcodec
    have hc' : t.codec.cs = .cTxBit := by rw [hcodec, hc]
    refine ⟨⟨hreq, .inl hc', fun _ => h.unpushed_nil hw hpend hrst hst⟩, ?_⟩
    rw [wireRest_cTxBit_eq_cons hc hp, wireRest_cTxBit hc', step_cfg hst, hcodec, hpend, leftTx_of_not_takesWord hw,
      osrBits_of_lt hb, hend, drop_tSlot_flatMap]
    rfl
  · exact h.step_boundary hc hlast h7 hn hrst hst

/-- A step in `C_STOP` asserts the line once more. -/
theorem Streams.step_cStop {n : Nat} {s t : State} (h : Streams n s) (hc : s.codec.cs = .cStop)
    (hn : n ≤ timeoutCycles s.cfg) (hrst : (input s).rst = false) (hst : Machine.step s = .next t) :
    Streams (n + 1) t ∧ wireRest s = (!driveLow s) :: wireRest t := by
  have hp : s.codec.ph < s.cfg.tStopLow := h.phaseOk.2.1 hc
  have hw : ¬ TakesWord s := by simp [TakesWord, hc]
  obtain ⟨hreq, hpend⟩ := h.toRequesting.step hn (by simp [hc]) hrst hst
  have hvisible : t.codec.bitc = 7#3 → t.txq = [] → unpushed t.orch = [] :=
    fun _ => h.unpushed_nil hw hpend hrst hst
  rw [wireRest_cStop_eq_cons hc hp]
  by_cases hin : s.codec.ph < s.cfg.tStopLow - 1
  · have hcodec := step_codec_of_arm hrst h.restart_eq_false hc hst (exec_armCStop_inside hin)
    have hc' : t.codec.cs = .cStop := by rw [hcodec, ← hc]; rfl
    refine ⟨⟨hreq, .inr (.inl hc'), hvisible⟩, ?_⟩
    rw [wireRest_cStop hc', step_cfg hst, hcodec]
    rfl
  · have hcodec := step_codec_of_arm hrst h.restart_eq_false hc hst (exec_armCStop_last (by omega))
    have hc' : t.codec.cs = .cRxHigh := by rw [hcodec]; rfl
    refine ⟨⟨hreq, .inr (.inr hc'), hvisible⟩, ?_⟩
    rw [wireRest_cRxHigh hc', List.drop_eq_nil_of_le]
    rw [stopLevels, List.length_replicate]
    omega

/-- As long as levels are to come, a step goes on streaming and the levels to come lose their head. -/
theorem Streams.step {n : Nat} {s t : State} (h : Streams n s) (hne : wireRest s ≠ [])
    (hn : n ≤ timeoutCycles s.cfg) (hrst : (input s).rst = false) (hst : Machine.step s = .next t) :
    Streams (n + 1) t ∧ wireRest s = (!driveLow s) :: wireRest t := by
  obtain hc | hc | hc := h.cs_cases
  · exact h.step_cTxBit hc hn hrst hst
  · exact h.step_cStop hc hn hrst hst
  · exact absurd (wireRest_cRxHigh hc) hne

/-- A streaming codec leaves the levels to come, one a cycle. -/
theorem Streams.run {n : Nat} {s : State} (h : Streams n s) {k : Nat} (hk : k ≤ (wireRest s).length)
    (hn : n + k ≤ timeoutCycles s.cfg + 1) (hrst : ∀ j < k, (inputAt s j).rst = false) :
    ∃ t, cycles k s = .next t ∧ Streams (n + k) t ∧ wireRest t = (wireRest s).drop k := by
  induction k with
  | zero => exact ⟨s, rfl, h, rfl⟩
  | succ k ih =>
    obtain ⟨u, hu, hstreams, hrest⟩ := ih (Nat.le_of_succ_le hk) (by omega) fun j hj => hrst j (by omega)
    obtain ⟨t, ht⟩ := step_next_of_startable hstreams.startable
    have hne : wireRest u ≠ [] := by
      rw [hrest]
      exact fun e => absurd (List.drop_eq_nil_iff.mp e) (Nat.not_le.mpr hk)
    have hu' : n + k ≤ timeoutCycles u.cfg := by rw [cycles_cfg hu]; omega
    obtain ⟨hstreams', hcons⟩ := hstreams.step hne hu' (cycles_input hu ▸ hrst k (by omega)) ht
    refine ⟨t, (cycles_succ_of_next hu).trans ht, hstreams', ?_⟩
    rw [← List.drop_drop, ← hrest, hcons]
    rfl

/-- The level of a cycle is the head of the levels to come. -/
theorem Streams.head?_wireRest {n : Nat} {s : State} (h : Streams n s) (hne : wireRest s ≠ []) :
    (wireRest s).head? = some (!driveLow s) := by
  obtain hc | hc | hc := h.cs_cases
  · rw [wireRest_cTxBit_eq_cons hc (h.phaseOk.1 hc), List.head?_cons]
  · rw [wireRest_cStop_eq_cons hc (h.phaseOk.2.1 hc), List.head?_cons]
  · exact absurd (wireRest_cRxHigh hc) hne

/-- In cycle `k` of the levels to come the line has level `k` of them. -/
theorem Streams.level {n : Nat} {s : State} (h : Streams n s) {k : Nat} (hk : k < (wireRest s).length)
    (hn : n + k ≤ timeoutCycles s.cfg + 1) (hrst : ∀ j < k, (inputAt s j).rst = false) :
    ∃ t, cycles k s = .next t ∧ (wireRest s)[k]? = some (!driveLow t) := by
  obtain ⟨t, ht, hstreams, hrest⟩ := h.run hk.le hn hrst
  have hne : wireRest t ≠ [] := by
    rw [hrest]
    exact fun e => absurd (List.drop_eq_nil_iff.mp e) (Nat.not_le.mpr hk)
  exact ⟨t, ht, by rw [← hstreams.head?_wireRest hne, hrest, List.head?_drop]⟩

/-- After the levels to come the codec listens, and the line is released. -/
theorem Streams.finish {n : Nat} {s : State} (h : Streams n s)
    (hn : n + (wireRest s).length ≤ timeoutCycles s.cfg + 1)
    (hrst : ∀ j < (wireRest s).length, (inputAt s j).rst = false) :
    ∃ t, cycles (wireRest s).length s = .next t ∧ t.codec.cs = .cRxHigh ∧ driveLow t = false := by
  obtain ⟨t, ht, hstreams, hrest⟩ := h.run le_rfl hn hrst
  rw [List.drop_length] at hrest
  obtain hc | hc | hc := hstreams.cs_cases
  · rw [wireRest_cTxBit_eq_cons hc (hstreams.phaseOk.1 hc)] at hrest
    cases hrest
  · rw [wireRest_cStop_eq_cons hc (hstreams.phaseOk.2.1 hc)] at hrest
    cases hrest
  · exact ⟨t, ht, hc, driveLow_of_not_sending (by simp [hc]) (by simp [hc])⟩

/-! ### The first cycles of a request -/

/-- The data words of the request bytes (`41_orchestrator.md` R166). -/
def requestWords (s : State) : List TxWord := (s.orch.rq.take s.orch.rqlen).map dataWord

/-- The levels of the request's words and STOP are those of the request (`30_encoding.md` R110). -/
theorem requestWords_levels (s : State) :
    (requestWords s).flatMap (wordLevels s.cfg) ++ stopLevels s.cfg =
      requestLevels s.cfg (s.orch.rq.take s.orch.rqlen) := by
  rw [requestWords, List.flatMap_map, requestLevels_eq]
  simp only [wordLevels_dataWord]

/-- After the cycle of `O_CTRL` the control word is in TXQ and every request word is still to be pushed
(`41_orchestrator.md` R165). -/
theorem step_oCtrl {s t : State} (hinv : s.Inv) (hin : s.CtrlInStep) (ho : s.orch.os = .oCtrl)
    (hrst : (input s).rst = false) (hst : step s = .next t) :
    Requesting 0 t ∧ t.orch.os = .oReq ∧ t.codec.cs = .cIdle ∧ t.txq = [controlWord (lenm1 s.orch.rslen)] ∧
      unpushed t.orch = requestWords s := by
  have hs := step_startable (startable_of_inv hinv) hst
  obtain ⟨hcs, htxq, hrxq⟩ := hin ho
  obtain ⟨-, hphase, ⟨hlen, -, hq1, hq3, -⟩, -⟩ := hinv
  obtain ⟨-, hdepth, -, hmax, -⟩ := s.cfg.legal
  have hr : s.orch.os ≠ .oReset := by simp [ho]
  have hroom : s.txq.length < s.cfg.qdTx := by rw [htxq]; exact hdepth
  obtain ⟨htx, hrx⟩ := step_queues hrst hphase hst hr
  have hcodec := step_codec_of_arm hrst (by simpa [restart] using hr) hcs hst (exec_armCIdle_nil htxq)
  have horch : t.orch = { s.orch with idx := 0, os := .oReq } := by
    obtain ⟨b, hb, ht⟩ := step_orch hrst hst
    rw [orchInstr, ho] at hb
    simp only [exec, execArmOCtrl, Laws.txNotFull_iff, if_pos hroom] at hb
    cases hb
    exact ht
  have hrxq' : t.rxq = [] := by simp [hrx, leftRx, pushedRx, ho, hcs, hrxq]
  refine ⟨⟨hs, step_phaseOk hphase hst, hrxq', ?_, ?_, ?_, ?_⟩, by rw [horch], by rw [hcodec, hcs], ?_, ?_⟩
  · exact .inl (by rw [horch])
  · rw [horch]
    exact hlen ▸ hq3.trans hmax
  · intro _
    rw [horch]
    exact hq1
  · intro hc
    simp [horch] at hc
  · rw [htx, leftTx_of_takesWord (.inl hcs), htxq, pushedTx_oCtrl ho hroom]
    rfl
  · rw [unpushed, horch, if_pos rfl, List.drop_zero, requestWords]

/-- The codec waits for the first of the request's words. -/
structure AwaitsWord (words : List TxWord) (n : Nat) (s : State) : Prop extends Requesting n s where
  waiting : s.codec.cs = .cTxWait
  pending : pendingTx s = words

/-- The codec, idle, takes the control word; behind it the first request word is pushed if TXQ is deeper than one
word. -/
theorem Requesting.step_cIdle {n : Nat} {s t : State} {w : TxWord} (h : Requesting n s) (ho : s.orch.os = .oReq)
    (hc : s.codec.cs = .cIdle) (hq : s.txq = [w]) (hn : n ≤ timeoutCycles s.cfg) (hrst : (input s).rst = false)
    (hst : Machine.step s = .next t) :
    AwaitsWord (unpushed s.orch) (n + 1) t ∧ (t.txq = [] ↔ s.cfg.qdTx = 1) := by
  obtain ⟨hreq, hpend⟩ := h.step hn (by simp [hc]) hrst hst
  have hleft : leftTx s = [] := by rw [leftTx_of_takesWord (.inl hc), hq]; rfl
  have hcodec := step_codec_of_arm hrst h.restart_eq_false hc hst (exec_armCIdle_cons hq)
  rw [Laws.takeControl_codec] at hcodec
  refine ⟨⟨hreq, by rw [hcodec], by rw [hpend, hleft, List.nil_append]⟩, ?_⟩
  obtain ⟨-, hdepth, -⟩ := s.cfg.legal
  rw [(step_queues hrst h.phaseOk hst h.not_restart).1, hleft, List.nil_append, ← List.length_eq_zero_iff,
    pushedTx_length, hq, List.length_singleton]
  simp only [ho, or_true, true_and]
  split <;> omega

/-- With TXQ empty the next word is pushed while the codec waits. -/
theorem AwaitsWord.step_nil {words : List TxWord} {n : Nat} {s t : State} (h : AwaitsWord words n s)
    (hwords : words ≠ []) (hq : s.txq = []) (hn : n ≤ timeoutCycles s.cfg) (hrst : (input s).rst = false)
    (hst : Machine.step s = .next t) : AwaitsWord words (n + 1) t ∧ t.txq ≠ [] := by
  obtain ⟨hreq, hpend⟩ := h.toRequesting.step hn (by simp [h.waiting]) hrst hst
  have hleft : leftTx s = [] := by rw [leftTx_of_takesWord (.inr (.inl h.waiting)), hq]; rfl
  have hun : unpushed s.orch = words := by rw [← h.pending, pendingTx, hq, List.nil_append]
  have hcodec := step_codec_of_arm hrst h.restart_eq_false h.waiting hst (exec_armCTxWait_nil hq)
  refine ⟨⟨hreq, by rw [hcodec, h.waiting], by rw [hpend, hleft, hun, List.nil_append]⟩, ?_⟩
  have ho : s.orch.os = .oReq :=
    h.os_cases.resolve_right fun ho => hwords (hun.symm.trans (unpushed_of_oCollect ho))
  obtain ⟨-, hdepth, -⟩ := s.cfg.legal
  rw [(step_queues hrst h.phaseOk hst h.not_restart).1, pushedTx_oReq ho (by rw [hq]; exact hdepth)]
  simp

/-- With a word in TXQ the codec takes it, and every level of the words is still to come. -/
theorem AwaitsWord.step_cons {words : List TxWord} {n : Nat} {s t : State} (h : AwaitsWord words n s)
    (hq : s.txq ≠ []) (hn : n ≤ timeoutCycles s.cfg) (hrst : (input s).rst = false)
    (hst : Machine.step s = .next t) :
    Streams (n + 1) t ∧ wireRest t = words.flatMap (wordLevels s.cfg) ++ stopLevels s.cfg := by
  obtain ⟨hreq, hpend⟩ := h.toRequesting.step hn (by simp [h.waiting]) hrst hst
  obtain ⟨w, q, hwq⟩ := List.exists_cons_of_ne_nil hq
  have hcodec := step_codec_of_arm hrst h.restart_eq_false h.waiting hst (exec_armCTxWait_cons hwq)
  have hall : words = w :: pendingTx t := by
    rw [hpend, leftTx_of_takesWord (.inr (.inl h.waiting)), ← h.pending, pendingTx, hwq]
    rfl
  refine ⟨⟨hreq, .inl (by rw [hcodec]; rfl), fun h7 => ?_⟩, ?_⟩
  · simp [hcodec] at h7
  · rw [wireRest_of_takeData (step_cfg hst) hcodec, hall]

/-- A request has at least one byte (`10_state.md` R42). -/
theorem requestWords_ne_nil {s : State} (hinv : s.Inv) : requestWords s ≠ [] := by
  obtain ⟨-, -, ⟨hlen, -, hq1, -⟩, -⟩ := hinv
  obtain ⟨-, -, -, hmax, -⟩ := s.cfg.legal
  refine List.ne_nil_of_length_pos ?_
  rw [requestWords, List.length_map, List.length_take]
  omega

/-- The timeout is far beyond the first cycles of a request (`00_scope.md` R6, R9). -/
theorem three_le_timeoutCycles (c : Config) : 3 ≤ timeoutCycles c := by
  obtain ⟨hus, -⟩ := c.legal
  rw [timeoutCycles]
  omega

/-- From the cycle of `O_CTRL` the first slot begins after 3 cycles, or after 4 if TXQ holds one word only; until then
the line is released. -/
theorem request_begins {s : State} (hinv : s.Inv) (hin : s.CtrlInStep) (ho : s.orch.os = .oCtrl) {d : Nat}
    (hd : d = if s.cfg.qdTx = 1 then 4 else 3) (hrst : ∀ k < d, (inputAt s k).rst = false) :
    (∀ k < d, ∃ t, cycles k s = .next t ∧ driveLow t = false) ∧
    ∃ t, cycles d s = .next t ∧ Streams (d - 1) t ∧
      wireRest t = requestLevels s.cfg (s.orch.rq.take s.orch.rqlen) := by
  have hd3 : 3 ≤ d := by rw [hd]; split <;> omega
  have hreleased {u : State} (hc : u.codec.cs = .cIdle ∨ u.codec.cs = .cTxWait) : driveLow u = false := by
    obtain hc | hc := hc <;> exact driveLow_of_not_sending (by simp [hc]) (by simp [hc])
  have h0 := cycles_zero s
  obtain ⟨u1, hs1⟩ := step_next_of_startable (startable_of_inv hinv)
  have h1 := (cycles_succ_of_next h0).trans hs1
  obtain ⟨hreq, ho1, hidle, hq1, hun⟩ := step_oCtrl hinv hin ho (hrst 0 (by omega)) hs1
  obtain ⟨u2, hs2⟩ := step_next_of_startable hreq.startable
  have h2 := (cycles_succ_of_next h1).trans hs2
  obtain ⟨hawait, hnil⟩ :=
    hreq.step_cIdle ho1 hidle hq1 (Nat.zero_le _) (cycles_input h1 ▸ hrst 1 (by omega)) hs2
  rw [hun] at hawait
  rw [cycles_cfg h1] at hnil
  obtain ⟨u3, hs3⟩ := step_next_of_startable hawait.startable
  have h3 := (cycles_succ_of_next h2).trans hs3
  have hrst2 : (input u2).rst = false := cycles_input h2 ▸ hrst 2 (by omega)
  have hn1 : 1 ≤ timeoutCycles u2.cfg := (by decide : 1 ≤ 3).trans (three_le_timeoutCycles u2.cfg)
  have hn2 : 2 ≤ timeoutCycles u3.cfg := (by decide : 2 ≤ 3).trans (three_le_timeoutCycles u3.cfg)
  by_cases hone : s.cfg.qdTx = 1
  · obtain rfl : d = 4 := hd.trans (if_pos hone)
    obtain ⟨hawait', hq⟩ := hawait.step_nil (requestWords_ne_nil hinv) (hnil.mpr hone) hn1 hrst2 hs3
    obtain ⟨u4, hs4⟩ := step_next_of_startable hawait'.startable
    obtain ⟨hstreams, hrest⟩ := hawait'.step_cons hq hn2 (cycles_input h3 ▸ hrst 3 (by omega)) hs4
    refine ⟨fun k hk => ?_, u4, (cycles_succ_of_next h3).trans hs4, hstreams, ?_⟩
    · interval_cases k
      · exact ⟨s, h0, hreleased (.inl (hin ho).1)⟩
      · exact ⟨u1, h1, hreleased (.inl hidle)⟩
      · exact ⟨u2, h2, hreleased (.inr hawait.waiting)⟩
      · exact ⟨u3, h3, hreleased (.inr hawait'.waiting)⟩
    · rw [hrest, cycles_cfg h3, requestWords_levels]
  · obtain rfl : d = 3 := hd.trans (if_neg hone)
    obtain ⟨hstreams, hrest⟩ := hawait.step_cons (fun hq => hone (hnil.mp hq)) hn1 hrst2 hs3
    refine ⟨fun k hk => ?_, u3, h3, hstreams, ?_⟩
    · interval_cases k
      · exact ⟨s, h0, hreleased (.inl (hin ho).1)⟩
      · exact ⟨u1, h1, hreleased (.inl hidle)⟩
      · exact ⟨u2, h2, hreleased (.inr hawait.waiting)⟩
    · rw [hrest, cycles_cfg h2, requestWords_levels]

/-- Settles O58: from the first slot on the levels to come are those of the request, and the timeout is not reached
before their end (`70_reset_and_hazards.md` R281). -/
theorem requestOnTheWire : Obligations.RequestOnTheWire := by
  intro s d hsafe hinv hin ho hd hrst
  have hd4 : d ≤ 4 := by rw [hd]; split <;> omega
  obtain ⟨hbefore, u, hu, hstreams, hrest⟩ := request_begins hinv hin ho hd fun k hk => hrst k (by omega)
  obtain ⟨-, -, ⟨hlen, -, -, hq3, -⟩, -⟩ := hinv
  obtain ⟨-, -, -, hmax, -⟩ := s.cfg.legal
  have htotal : (wireRest u).length = 8 * s.orch.rqlen * s.cfg.tSlot + s.cfg.tStopLow := by
    rw [hrest, length_requestLevels, List.length_take, Nat.min_eq_left (by omega)]
  have htime : (d - 1) + (wireRest u).length ≤ timeoutCycles u.cfg + 1 := by
    have hbytes : 8 * s.orch.rqlen * s.cfg.tSlot ≤ 8 * 3 * s.cfg.tSlot := by gcongr
    rw [htotal, cycles_cfg hu, timeoutCycles]
    have hsafe' : 8 * 3 * s.cfg.tSlot + s.cfg.tStopLow + 2 ≤ 600 * s.cfg.nUs := hsafe
    omega
  rw [← htotal] at hrst ⊢
  have hrst' (j : Nat) (hj : j < (wireRest u).length) : (inputAt u j).rst = false := by
    rw [cycles_inputAt hu]
    exact hrst _ (by omega)
  refine ⟨hbefore, fun k hk => ?_, ?_⟩
  · obtain ⟨t, ht, hlevel⟩ := hstreams.level hk (by omega) fun j hj => hrst' j (hj.trans hk)
    exact ⟨t, (cycles_add_of_next hu k).trans ht, hrest ▸ hlevel⟩
  · obtain ⟨t, ht, hcs, hlow⟩ := hstreams.finish htime hrst'
    exact ⟨t, (cycles_add_of_next hu _).trans ht, hcs, hlow⟩

end Sys2Proof.Proofs
end

section
/-! The orchestrator's operation and its arms (`41_orchestrator.md` sections 1, 2): one equation for each case of each
arm. -/

namespace Sys2Proof.Proofs

open Sys2Proof.Machine

/-! ### The start of a transfer: TRANSFER and `O_IDLE` (R160 to R162) -/

/-- Operands in range are latched. -/
theorem startTransfer_of_legal {s : State} {q r : Nat} (h : operandsLegal s.cfg q r = true) (rq : List Byte) :
    startTransfer rq q r s = .next (s.setOrch
      { os := .oReset, rq := rq, rqlen := q, rslen := r, idx := 0, tmr := 0, resp := Vector.replicate 32 0#8 }) :=
  if_pos h

/-- Operands out of range have no meaning (`30_encoding.md` R107 (c)). -/
theorem startTransfer_of_not_legal {s : State} {q r : Nat} (h : ¬ operandsLegal s.cfg q r = true) (rq : List Byte) :
    startTransfer rq q r s = .refused .transferOperands :=
  if_neg h

theorem exec_transfer_idle {s : State} (ho : s.orch.os = .oIdle) (request : List Byte) (n : Nat) :
    exec (.transfer request n) s = startTransfer (padRequest s.cfg request) request.length n s :=
  if_pos ho

theorem exec_transfer_busy {s : State} (ho : s.orch.os ≠ .oIdle) (request : List Byte) (n : Nat) :
    exec (.transfer request n) s = .next s :=
  if_neg ho

theorem exec_armOIdle_start {s : State} (h : s.session.ss = .sStart) :
    exec .armOIdle s = startTransfer s.session.sReq s.session.sRqlen s.session.sRslen s :=
  if_pos ((Laws.xferStart_iff s).mpr h)

theorem exec_armOIdle_none {s : State} (h : s.session.ss ≠ .sStart) : exec .armOIdle s = .next s :=
  if_neg fun hs => h ((Laws.xferStart_iff s).mp hs)

/-- Settles O21: the operation, in `O_IDLE`, is the start of a transfer. -/
theorem transferStartsWhenIdle : Obligations.TransferStartsWhenIdle := by
  intro s request n ho hq hmax hn h32
  rw [exec_transfer_idle ho, startTransfer_of_legal ((Laws.operandsLegal_iff _ _ _).mpr ⟨hq, hmax, hn, h32⟩)]
  rfl

/-- Settles O22: a busy orchestrator ignores the operation; an idle one refuses operands out of range, however they
come. -/
theorem transferOtherwise : Obligations.TransferOtherwise := by
  refine fun s request n => ⟨fun ho => exec_transfer_busy ho request n, fun ho hbad => ?_, fun hss hbad => ?_⟩
  · rw [exec_transfer_idle ho, startTransfer_of_not_legal (mt (Laws.operandsLegal_iff _ _ _).mp hbad)]
  · rw [exec_armOIdle_start hss, startTransfer_of_not_legal (mt (Laws.operandsLegal_iff _ _ _).mp hbad)]

/-- Settles O34: `O_IDLE` starts a transfer when the session layer asks for one, and does nothing else. -/
theorem oIdleLatchesRequest : Obligations.OIdleLatchesRequest := by
  refine fun s => ⟨fun hss hq hmax hn h32 => ?_, exec_armOIdle_none⟩
  rw [exec_armOIdle_start hss, startTransfer_of_legal ((Laws.operandsLegal_iff _ _ _).mpr ⟨hq, hmax, hn, h32⟩)]
  rfl

/-! ### Sending: `O_RESET` (R164), `O_CTRL` (R165), `O_REQ` (R166) -/

/-- Settles O35: the restart of the codec and its reset value, written out. -/
theorem oResetRestartsAndFlushes : Obligations.OResetRestartsAndFlushes := fun s => ⟨rfl, Laws.restart_iff s⟩

/-- A control word as a number: LENM1 stands above bit 26 (`30_encoding.md` R96, R106 (a)). -/
theorem controlWord_lenm1 (r : Nat) : controlWord (lenm1 r) = BitVec.ofNat 32 ((r - 1) * 2 ^ 27) := by
  apply BitVec.eq_of_toNat_eq
  rw [controlWord, lenm1, toNat_append_eq_mul_add, BitVec.toNat_ofNat, BitVec.toNat_ofNat, BitVec.toNat_ofNat]
  omega

/-- A data word as a number: the byte stands above bit 23 (`30_encoding.md` R97). -/
theorem dataWord_eq_ofNat (b : Byte) : dataWord b = BitVec.ofNat 32 (b.toNat * 2 ^ 24) := by
  apply BitVec.eq_of_toNat_eq
  rw [dataWord, toNat_append_eq_mul_add, BitVec.toNat_ofNat, BitVec.toNat_ofNat]
  omega

theorem requestByte_of_getElem? {o : Orch} {b : Byte} (h : o.rq[o.idx]? = some b) : requestByte o = b := by
  simp [requestByte, h]

theorem exec_armOCtrl_room {s : State} (hq : s.txq.length < s.cfg.qdTx) :
    exec .armOCtrl s = .next ((s.setTxq (s.txq ++ [controlWord (lenm1 s.orch.rslen)])).setOrch
      { s.orch with idx := 0, os := .oReq }) :=
  if_pos ((Laws.txNotFull_iff s).mpr hq)

theorem exec_armOCtrl_full {s : State} (hq : s.cfg.qdTx ≤ s.txq.length) : exec .armOCtrl s = .next s :=
  if_neg fun h => Nat.not_lt.mpr hq ((Laws.txNotFull_iff s).mp h)

/-- The last byte of the request. -/
theorem exec_armOReq_last {s : State} (hq : s.txq.length < s.cfg.qdTx) (hi : s.orch.idx = s.orch.rqlen - 1) :
    exec .armOReq s = .next ((s.setTxq (s.txq ++ [dataWord (requestByte s.orch)])).setOrch
      { s.orch with idx := 0, tmr := 0, os := .oCollect }) :=
  (if_pos ((Laws.txNotFull_iff s).mpr hq)).trans (if_pos hi)

/-- A byte with more to come. -/
theorem exec_armOReq_more {s : State} (hq : s.txq.length < s.cfg.qdTx) (hi : s.orch.idx ≠ s.orch.rqlen - 1) :
    exec .armOReq s = .next ((s.setTxq (s.txq ++ [dataWord (requestByte s.orch)])).setOrch
      { s.orch with idx := s.orch.idx + 1 }) :=
  (if_pos ((Laws.txNotFull_iff s).mpr hq)).trans (if_neg hi)

/-- No room: backpressure. -/
theorem exec_armOReq_full {s : State} (hq : s.cfg.qdTx ≤ s.txq.length) : exec .armOReq s = .next s :=
  if_neg fun h => Nat.not_lt.mpr hq ((Laws.txNotFull_iff s).mp h)

/-- Settles O36: with room the control word is pushed. -/
theorem oCtrlPushesControlWord : Obligations.OCtrlPushesControlWord := by
  refine fun s => ⟨fun hq _ _ => ?_, exec_armOCtrl_full⟩
  rw [exec_armOCtrl_room hq, controlWord_lenm1]
  rfl

/-- Settles O37: with room the word of byte `idx` is pushed; the last one starts the collection. -/
theorem oReqStreamsBytes : Obligations.OReqStreamsBytes := by
  intro s b hb
  rw [← dataWord_eq_ofNat, ← requestByte_of_getElem? hb]
  refine ⟨fun hq hi => ?_, fun hq hi => ?_, exec_armOReq_full⟩
  · rw [exec_armOReq_last hq (by omega)]
    rfl
  · rw [exec_armOReq_more hq (by omega)]
    rfl

/-! ### Collecting: `O_COLLECT` (R167 to R169) -/

/-- The timeout comes first (R167). -/
theorem exec_armOCollect_timeout {s : State} (ht : s.orch.tmr = timeoutCycles s.cfg) :
    exec .armOCollect s = .next (takeTimeout s) :=
  if_pos ht

/-- Then a byte (R168). -/
theorem exec_armOCollect_cons {s : State} {b : Byte} {q : List Byte} (ht : s.orch.tmr ≠ timeoutCycles s.cfg)
    (hq : s.rxq = b :: q) : exec .armOCollect s = .next (collectByte b s) := by
  simp only [exec, execArmOCollect, ht, hq, if_false]

/-- Then waiting (R169). -/
theorem exec_armOCollect_nil {s : State} (ht : s.orch.tmr ≠ timeoutCycles s.cfg) (hq : s.rxq = []) :
    exec .armOCollect s = .next (s.setOrch { s.orch with tmr := s.orch.tmr + 1 }) := by
  simp only [exec, execArmOCollect, ht, hq, if_false]

/-- The last expected byte ends the collection. -/
theorem collectByte_last {s : State} (hi : s.orch.idx = s.orch.rslen - 1) (b : Byte) :
    collectByte b s = (s.setRxq s.rxq.tail).setOrch
      { s.orch with resp := s.orch.resp.setIfInBounds s.orch.idx b, tmr := 0, os := .oSpace } :=
  if_pos hi

/-- A byte with more to come. -/
theorem collectByte_more {s : State} (hi : s.orch.idx ≠ s.orch.rslen - 1) (b : Byte) :
    collectByte b s = (s.setRxq s.rxq.tail).setOrch
      { s.orch with resp := s.orch.resp.setIfInBounds s.orch.idx b, tmr := 0, idx := s.orch.idx + 1 } :=
  if_neg hi

/-- Settles O38: the three cases of the arm, and the place of the byte. -/
theorem oCollectTimeoutByteOrWait : Obligations.OCollectTimeoutByteOrWait := by
  refine fun s => ⟨exec_armOCollect_timeout, fun ht _ b q hq => ?_, fun ht hq => exec_armOCollect_nil ht.ne hq⟩
  have htail : q = s.rxq.tail := by rw [hq, List.tail_cons]
  refine ⟨s.orch.resp.setIfInBounds s.orch.idx b, fun j => ?_, fun hi => ?_, fun hi => ?_⟩
  · simp only [Fin.getElem_fin, Vector.getElem_setIfInBounds, eq_comm]
  · rw [exec_armOCollect_cons ht.ne hq, collectByte_last (by omega), htail]
    rfl
  · rw [exec_armOCollect_cons ht.ne hq, collectByte_more (by omega), htail]
    rfl

/-! ### Spacing and the end: `O_SPACE` (R172, R173), `O_DONE` (R174) -/

theorem exec_armOSpace_last {s : State}
    (ht : s.orch.tmr = spaceCycles s.cfg s.orch.rqlen s.orch.rslen - 1) :
    exec .armOSpace s = .next (s.setOrch { s.orch with tmr := 0, os := .oDone }) :=
  if_pos ht

theorem exec_armOSpace_more {s : State}
    (ht : s.orch.tmr ≠ spaceCycles s.cfg s.orch.rqlen s.orch.rslen - 1) :
    exec .armOSpace s = .next (s.setOrch { s.orch with tmr := s.orch.tmr + 1 }) :=
  if_neg ht

/-- Settles O39: the last cycle of the spacing, and the cycles before it. -/
theorem oSpaceCountsSpacing : Obligations.OSpaceCountsSpacing :=
  fun _ => ⟨fun ht => exec_armOSpace_last (Nat.eq_sub_of_add_eq ht),
    fun ht => exec_armOSpace_more (Nat.lt_sub_of_add_lt ht).ne⟩

theorem xferBusy_iff (s : State) : xferBusy s = true ↔ s.orch.os ≠ .oIdle := by
  simp [xferBusy]

/-- Settles O40: the arm writes `os` and nothing else; the two signals compare it. -/
theorem oDoneReturnsToIdle : Obligations.ODoneReturnsToIdle := fun s =>
  ⟨rfl, Laws.xferDone_iff s, xferBusy_iff s⟩

end Sys2Proof.Proofs
end

section
/-! The orchestrator's registers at an edge, said once (`41_orchestrator.md` section 2), and how long the collection and
the spacing last (R173, R176). -/

namespace Sys2Proof.Proofs

open Sys2Proof.Machine

/-! ### What an edge does to the orchestrator's registers -/

/-- What the orchestrator's arm can do to its registers on the state `s`: one case for each case of each arm. -/
inductive OrchStep (s : State) (o : Orch) : Prop where
  | idle (ho : s.orch.os = .oIdle) (e : o = s.orch)
  | start (ho : s.orch.os = .oIdle) (hlegal : operandsLegal s.cfg s.session.sRqlen s.session.sRslen = true)
      (e : o =
        { os := .oReset, rq := s.session.sReq, rqlen := s.session.sRqlen, rslen := s.session.sRslen, idx := 0, tmr := 0,
          resp := Vector.replicate 32 0#8 })
  | reset (ho : s.orch.os = .oReset) (e : o = { s.orch with os := .oCtrl })
  | ctrl (ho : s.orch.os = .oCtrl) (hq : s.txq.length < s.cfg.qdTx) (e : o = { s.orch with idx := 0, os := .oReq })
  | ctrlFull (ho : s.orch.os = .oCtrl) (hq : s.cfg.qdTx ≤ s.txq.length) (e : o = s.orch)
  | reqLast (ho : s.orch.os = .oReq) (hq : s.txq.length < s.cfg.qdTx) (hi : s.orch.idx = s.orch.rqlen - 1)
      (e : o = { s.orch with idx := 0, tmr := 0, os := .oCollect })
  | reqMore (ho : s.orch.os = .oReq) (hq : s.txq.length < s.cfg.qdTx) (hi : s.orch.idx ≠ s.orch.rqlen - 1)
      (e : o = { s.orch with idx := s.orch.idx + 1 })
  | reqFull (ho : s.orch.os = .oReq) (hq : s.cfg.qdTx ≤ s.txq.length) (e : o = s.orch)
  | timeout (ho : s.orch.os = .oCollect) (ht : s.orch.tmr = timeoutCycles s.cfg)
      (e : o = { s.orch with tmr := 0, os := .oSpace })
  | byteLast (b : Byte) (ho : s.orch.os = .oCollect) (ht : s.orch.tmr ≠ timeoutCycles s.cfg) (hq : s.rxq ≠ [])
      (hi : s.orch.idx = s.orch.rslen - 1)
      (e : o = { s.orch with resp := s.orch.resp.setIfInBounds s.orch.idx b, tmr := 0, os := .oSpace })
  | byteMore (b : Byte) (ho : s.orch.os = .oCollect) (ht : s.orch.tmr ≠ timeoutCycles s.cfg) (hq : s.rxq ≠ [])
      (hi : s.orch.idx ≠ s.orch.rslen - 1)
      (e : o = { s.orch with resp := s.orch.resp.setIfInBounds s.orch.idx b, tmr := 0, idx := s.orch.idx + 1 })
  | wait (ho : s.orch.os = .oCollect) (ht : s.orch.tmr ≠ timeoutCycles s.cfg) (hq : s.rxq = [])
      (e : o = { s.orch with tmr := s.orch.tmr + 1 })
  | space (ho : s.orch.os = .oSpace) (e : o = { s.orch with tmr := s.orch.tmr + 1 })
  | spaceLast (ho : s.orch.os = .oSpace) (e : o = { s.orch with tmr := 0, os := .oDone })
  | done (ho : s.orch.os = .oDone) (e : o = { s.orch with os := .oIdle })

/-- In `O_IDLE` (R162). -/
theorem oIdle_orchStep {s b : State} (ho : s.orch.os = .oIdle) (h : exec .armOIdle s = .next b) :
    OrchStep s b.orch := by
  by_cases hss : s.session.ss = .sStart
  · rw [exec_armOIdle_start hss] at h
    by_cases hlegal : operandsLegal s.cfg s.session.sRqlen s.session.sRslen = true
    · cases (startTransfer_of_legal hlegal _).symm.trans h
      exact .start ho hlegal rfl
    · cases (startTransfer_of_not_legal hlegal _).symm.trans h
  · cases (exec_armOIdle_none hss).symm.trans h
    exact .idle ho rfl

/-- In `O_CTRL` (R165). -/
theorem oCtrl_orchStep {s b : State} (ho : s.orch.os = .oCtrl) (h : exec .armOCtrl s = .next b) :
    OrchStep s b.orch := by
  obtain hq | hq := Nat.lt_or_ge s.txq.length s.cfg.qdTx
  · cases (exec_armOCtrl_room hq).symm.trans h
    exact .ctrl ho hq rfl
  · cases (exec_armOCtrl_full hq).symm.trans h
    exact .ctrlFull ho hq rfl

/-- In `O_REQ` (R166). -/
theorem oReq_orchStep {s b : State} (ho : s.orch.os = .oReq) (h : exec .armOReq s = .next b) : OrchStep s b.orch := by
  obtain hq | hq := Nat.lt_or_ge s.txq.length s.cfg.qdTx
  · by_cases hi : s.orch.idx = s.orch.rqlen - 1
    · cases (exec_armOReq_last hq hi).symm.trans h
      exact .reqLast ho hq hi rfl
    · cases (exec_armOReq_more hq hi).symm.trans h
      exact .reqMore ho hq hi rfl
  · cases (exec_armOReq_full hq).symm.trans h
    exact .reqFull ho hq rfl

/-- In `O_COLLECT` (R167 to R169). -/
theorem oCollect_orchStep {s b : State} (ho : s.orch.os = .oCollect) (h : exec .armOCollect s = .next b) :
    OrchStep s b.orch := by
  by_cases ht : s.orch.tmr = timeoutCycles s.cfg
  · cases (exec_armOCollect_timeout ht).symm.trans h
    exact .timeout ho ht rfl
  · cases hq : s.rxq with
    | nil =>
      cases (exec_armOCollect_nil ht hq).symm.trans h
      exact .wait ho ht hq rfl
    | cons y q =>
      have hne : s.rxq ≠ [] := by simp [hq]
      cases (exec_armOCollect_cons ht hq).symm.trans h
      by_cases hi : s.orch.idx = s.orch.rslen - 1
      · exact .byteLast y ho ht hne hi (by rw [collectByte_last hi, Laws.setOrch_orch])
      · exact .byteMore y ho ht hne hi (by rw [collectByte_more hi, Laws.setOrch_orch])

/-- In `O_SPACE` (R173). -/
theorem oSpace_orchStep {s b : State} (ho : s.orch.os = .oSpace) (h : exec .armOSpace s = .next b) :
    OrchStep s b.orch := by
  by_cases ht : s.orch.tmr = spaceCycles s.cfg s.orch.rqlen s.orch.rslen - 1
  · cases (exec_armOSpace_last ht).symm.trans h
    exact .spaceLast ho rfl
  · cases (exec_armOSpace_more ht).symm.trans h
    exact .space ho rfl

/-- A step without reset changes the orchestrator's registers by one of the cases of its arms. -/
theorem step_orchStep {s t : State} (hrst : (input s).rst = false) (hst : step s = .next t) : OrchStep s t.orch := by
  obtain ⟨b, hb, ht⟩ := step_orch hrst hst
  rw [ht]
  rw [orchInstr] at hb
  cases ho : s.orch.os <;> rw [ho] at hb
  case oIdle => exact oIdle_orchStep ho hb
  case oReset => cases hb; exact .reset ho rfl
  case oCtrl => exact oCtrl_orchStep ho hb
  case oReq => exact oReq_orchStep ho hb
  case oCollect => exact oCollect_orchStep ho hb
  case oSpace => exact oSpace_orchStep ho hb
  case oDone => cases hb; exact .done ho rfl

/-! ### The spacing (R172, R173) -/

/-- In a cycle of the spacing the orchestrator's arm alone matters, and the session layer goes on waiting. -/
theorem step_space {s b : State} (ho : s.orch.os = .oSpace) (hss : s.session.ss = .sWait)
    (hrst : (input s).rst = false) (hb : exec .armOSpace s = .next b) :
    ∃ t, step s = .next t ∧ t.orch = b.orch ∧ t.session = s.session := by
  obtain ⟨a, ha⟩ := Laws.codec_arm_next s
  have hb' : exec (orchInstr s) s = .next b := by rw [orchInstr, ho, hb]
  have hdone : ¬ xferDone s = true := by simp [ho]
  have hc : exec (sessionInstr s) s = .next s := by
    rw [sessionInstr, hss]
    exact if_neg hdone
  exact ⟨_, step_of_arms_next hrst ha hb' hc, rfl, rfl⟩

/-- Before the end of the spacing `tmr` has counted the cycles, and nothing else has changed. -/
theorem cycles_space {s : State} (ho : s.orch.os = .oSpace) (htmr : s.orch.tmr = 0) (hss : s.session.ss = .sWait)
    {k : Nat} (hk : k < spaceCycles s.cfg s.orch.rqlen s.orch.rslen)
    (hrst : ∀ j < k, (inputAt s j).rst = false) :
    ∃ t, cycles k s = .next t ∧ t.orch = { s.orch with tmr := k } ∧ t.session = s.session := by
  induction k with
  | zero => exact ⟨s, rfl, by rw [← htmr], rfl⟩
  | succ k ih =>
    obtain ⟨u, hu, horch, hsession⟩ := ih (Nat.lt_of_succ_lt hk) fun j hj => hrst j (Nat.lt_succ_of_lt hj)
    have hmore : u.orch.tmr ≠ spaceCycles u.cfg u.orch.rqlen u.orch.rslen - 1 := by
      rw [horch, cycles_cfg hu]
      exact (Nat.lt_sub_of_add_lt hk).ne
    obtain ⟨t, ht, horch', hsession'⟩ := step_space (by rw [horch, ho]) (by rw [hsession, hss])
      (cycles_input hu ▸ hrst k (Nat.lt_succ_self k)) (exec_armOSpace_more hmore)
    refine ⟨t, (cycles_succ_of_next hu).trans ht, ?_, hsession'.trans hsession⟩
    rw [horch', Laws.setOrch_orch, horch]

/-- The spacing lasts at least one cycle (`00_scope.md` R6). -/
theorem spaceCycles_pos (c : Config) (q r : Nat) : 0 < spaceCycles c q r := by
  obtain ⟨hus, -⟩ := c.legal
  exact Nat.mul_pos (Nat.add_pos_right _ (by decide)) (by omega)

theorem cmdReady_eq_false {s : State} (h : s.session.ss = .sWait) : cmdReady s = false := by
  simp [cmdReady, h]

/-- Settles O54: `tmr` counts the cycles of the spacing; the last of them leads to `O_DONE`. -/
theorem spacingLastsExactly : Obligations.SpacingLastsExactly := by
  intro s ho htmr hss hrst
  refine ⟨fun k hk => ?_, ?_⟩
  · obtain ⟨t, ht, horch, hsession⟩ := cycles_space ho htmr hss hk fun j hj => hrst j (hj.trans hk)
    exact ⟨t, ht, by rw [horch, ho], by rw [horch], cmdReady_eq_false (by rw [hsession, hss])⟩
  · obtain ⟨n, hn⟩ := Nat.exists_eq_add_one.mpr (spaceCycles_pos s.cfg s.orch.rqlen s.orch.rslen)
    rw [spaceCycles] at hn
    rw [hn] at hrst ⊢
    obtain ⟨u, hu, horch, hsession⟩ :=
      cycles_space ho htmr hss (k := n) (by rw [spaceCycles]; omega) fun j hj => hrst j (Nat.lt_succ_of_lt hj)
    have hlast : u.orch.tmr = spaceCycles u.cfg u.orch.rqlen u.orch.rslen - 1 := by
      rw [horch, cycles_cfg hu, spaceCycles, hn, Nat.add_sub_cancel]
    obtain ⟨t, ht, horch', hsession'⟩ := step_space (by rw [horch, ho]) (by rw [hsession, hss])
      (cycles_input hu ▸ hrst n (Nat.lt_succ_self n)) (exec_armOSpace_last hlast)
    rw [Laws.setOrch_orch] at horch'
    exact ⟨t, (cycles_succ_of_next hu).trans ht, by rw [horch'], by rw [horch', horch],
      cmdReady_eq_false (by rw [hsession', hsession, hss])⟩

/-! ### The collection (R170, R176) -/

/-- The orchestrator collects, and both its counters are in range. -/
structure Collecting (s : State) : Prop where
  startable : Startable s
  collecting : s.orch.os = .oCollect
  idx_lt : s.orch.idx < s.orch.rslen
  tmr_le : s.orch.tmr ≤ timeoutCycles s.cfg

/-- The most cycles the collection can still take: a timeout's worth for each byte still expected, less the time waited
for the current one, and the cycle in which the timeout is seen. -/
def collectCycles (s : State) : Nat := (s.orch.rslen - s.orch.idx) * timeoutCycles s.cfg + 1 - s.orch.tmr

/-- While it collects, there is a cycle left. -/
theorem Collecting.collectCycles_pos {s : State} (h : Collecting s) : 0 < collectCycles s := by
  have hmul : timeoutCycles s.cfg ≤ (s.orch.rslen - s.orch.idx) * timeoutCycles s.cfg :=
    Nat.le_mul_of_pos_left _ (Nat.sub_pos_of_lt h.idx_lt)
  have htmr := h.tmr_le
  rw [collectCycles]
  omega

/-- A cycle of the collection ends it, or leaves fewer cycles to come. -/
theorem Collecting.step {s t : State} (h : Collecting s) (hrst : (input s).rst = false)
    (hst : Machine.step s = .next t) :
    (t.orch.os = .oSpace ∧ t.orch.tmr = 0) ∨ (Collecting t ∧ collectCycles t < collectCycles s) := by
  have hs := step_startable h.startable hst
  have hcfg := step_cfg hst
  have hidx := h.idx_lt
  have htmr := h.tmr_le
  have hpos := h.collectCycles_pos
  rw [collectCycles] at hpos
  cases step_orchStep hrst hst
  case timeout e => exact .inl ⟨by rw [e], by rw [e]⟩
  case byteLast e => exact .inl ⟨by rw [e], by rw [e]⟩
  case byteMore ho ht hq hi e =>
    obtain ⟨m, hm⟩ : ∃ m, s.orch.rslen - s.orch.idx = m + 1 := Nat.exists_eq_add_one.mpr (Nat.sub_pos_of_lt hidx)
    have hm' : s.orch.rslen - (s.orch.idx + 1) = m := by omega
    refine .inr ⟨⟨hs, by rw [e, ho], ?_, ?_⟩, ?_⟩
    · rw [e]
      change s.orch.idx + 1 < s.orch.rslen
      omega
    · rw [e]
      exact Nat.zero_le _
    · rw [collectCycles, collectCycles, hcfg, e, hm, hm', Nat.succ_mul]
      omega
  case wait ho ht hq e =>
    refine .inr ⟨⟨hs, by rw [e, ho], by rw [e]; exact hidx, ?_⟩, ?_⟩
    · rw [e, hcfg]
      exact Nat.lt_of_le_of_ne htmr ht
    · rw [collectCycles, collectCycles, hcfg, e]
      exact Nat.sub_succ_lt_self _ _ (Nat.lt_of_sub_pos hpos)
  all_goals exact absurd (h.collecting.symm.trans ‹s.orch.os = _›) (by decide)

/-- The collection ends in the time that is left. -/
theorem Collecting.ends {n : Nat} {s : State} (h : Collecting s) (hn : collectCycles s ≤ n)
    (hrst : ∀ k < n, (inputAt s k).rst = false) :
    ∃ k t, 1 ≤ k ∧ k ≤ n ∧ cycles k s = .next t ∧ t.orch.os = .oSpace ∧ t.orch.tmr = 0 := by
  induction n generalizing s with
  | zero => exact absurd h.collectCycles_pos (Nat.not_lt.mpr hn)
  | succ n ih =>
    obtain ⟨u, hu⟩ := step_next_of_startable h.startable
    have hu' : cycles 1 s = .next u := (cycles_succ_of_next (cycles_zero s)).trans hu
    obtain ⟨hos, htmr⟩ | ⟨hcollecting, hless⟩ := h.step (hrst 0 (Nat.succ_pos n)) hu
    · exact ⟨1, u, le_rfl, Nat.succ_pos n, hu', hos, htmr⟩
    · obtain ⟨k, t, -, hkn, ht, hend⟩ := ih hcollecting (by omega) fun k hk => by
        rw [step_inputAt hu]
        exact hrst _ (Nat.succ_lt_succ hk)
      exact ⟨1 + k, t, Nat.le_add_right 1 k, by omega, (cycles_add_of_next hu' k).trans ht, hend⟩

/-- Settles O55: at the start of the collection the time that is left is the bound of R176. -/
theorem collectionEndsInTime : Obligations.CollectionEndsInTime := by
  intro s hinv ho hidx htmr hrst
  have hs := startable_of_inv hinv
  obtain ⟨-, -, ⟨-, -, -, -, -, -, -, -, -, -, -, -, hidx'⟩, ⟨htmr', -⟩, -⟩ := hinv
  have hbound : collectCycles s = s.orch.rslen * (600 * s.cfg.nUs) + 1 := by
    rw [collectCycles, hidx, htmr, timeoutCycles, Nat.sub_zero, Nat.sub_zero]
  exact Collecting.ends ⟨hs, ho, hidx' ho, htmr' ho⟩ hbound.le hrst

end Sys2Proof.Proofs
end

section
/-! How far the codec is in the transfer (`41_orchestrator.md` R171, `70_reset_and_hazards.md` R280 to R282): what a
cycle does to a codec that listens, that sends, and that is being fed with the words of a request. -/

namespace Sys2Proof.Proofs

open Sys2Proof.Machine

/-! ### A codec that listens or is idle -/

/-- The response bytes the codec has still to hand over (`40_codec.md` R134). -/
def toCome (x : Codec) : Nat := if x.cs = .cIdle then 0 else x.rxn.toNat + 1

theorem toCome_of_cIdle {x : Codec} (h : x.cs = .cIdle) : toCome x = 0 := if_pos h

theorem toCome_of_ne {x : Codec} (h : x.cs ≠ .cIdle) : toCome x = x.rxn.toNat + 1 := if_neg h

/-- A cycle that leaves the codec with as much to hand over, and hands over nothing. -/
theorem toCome_kept {s : State} {x : Codec} (hrxn : x.rxn = s.codec.rxn) (hx : x.cs ≠ .cIdle)
    (hs : s.codec.cs ≠ .cIdle) (hpush : s.codec.cs ≠ .cRxPush) :
    toCome x + (pushedRx s).length = toCome s.codec := by
  rw [toCome_of_ne hx, toCome_of_ne hs, hrxn, pushedRx, if_neg fun h => hpush h.1, List.length_nil]

/-- The hand-over of a byte, when RXQ has room (R134). -/
theorem step_cRxPush {s t : State} (hrst : (input s).rst = false) (hr : restart s = false)
    (hc : s.codec.cs = .cRxPush) (hst : step s = .next t) :
    ¬ t.codec.sending ∧ toCome t.codec + (pushedRx s).length = toCome s.codec := by
  have hs : s.codec.cs ≠ .cIdle := by simp [hc]
  obtain hq | hq := Nat.lt_or_ge s.rxq.length s.cfg.qdRx
  · have hpush : (pushedRx s).length = 1 := by simp [pushedRx, hc, hq]
    by_cases hn : s.codec.rxn = 0#5
    · have hcodec := step_codec_of_arm hrst hr hc hst (exec_armCRxPush_last hq hn)
      rw [Laws.setCodec_codec] at hcodec
      rw [hcodec, hpush, toCome_of_ne hs, hn, toCome_of_cIdle rfl]
      exact ⟨by simp [Codec.sending], rfl⟩
    · have hcodec := step_codec_of_arm hrst hr hc hst (exec_armCRxPush_more hq hn)
      rw [Laws.setCodec_codec] at hcodec
      rw [hcodec, hpush, toCome_of_ne hs, ← toNat_sub_one_add_one hn, toCome_of_ne (by simp)]
      exact ⟨by simp [Codec.sending], rfl⟩
  · have hcodec := step_codec_of_arm hrst hr hc hst (exec_armCRxPush_full hq)
    have hpush : pushedRx s = [] := if_neg fun h => Nat.not_lt.mpr hq h.2
    rw [hcodec, hpush]
    exact ⟨by simp [Codec.sending, hc], rfl⟩

/-- A codec that sends nothing and finds no word goes on listening or idle, and hands over what it no longer has to
come. -/
theorem step_listening {s t : State} (hp : s.PhaseOk) (hrst : (input s).rst = false) (hr : restart s = false)
    (hns : ¬ s.codec.sending) (hq : s.txq = []) (hst : step s = .next t) :
    ¬ t.codec.sending ∧ toCome t.codec + (pushedRx s).length = toCome s.codec := by
  cases hc : s.codec.cs
  case cIdle =>
    have hcodec := step_codec_of_arm hrst hr hc hst (exec_armCIdle_nil hq)
    have hpush : pushedRx s = [] := by simp [pushedRx, hc]
    rw [hcodec, hpush]
    exact ⟨hns, rfl⟩
  case cTxWait => exact absurd (.inl hc) hns
  case cTxBit => exact absurd (.inr (.inl hc)) hns
  case cStop => exact absurd (.inr (.inr hc)) hns
  case cRxHigh =>
    by_cases hl : lineIn s = true
    · have hcodec := step_codec_of_arm hrst hr hc hst (exec_armCRxHigh_high hl)
      rw [hcodec]
      exact ⟨by simp [Codec.sending], toCome_kept rfl (by simp) (by simp [hc]) (by simp [hc])⟩
    · have hcodec := step_codec_of_arm hrst hr hc hst (exec_armCRxHigh_low hl)
      rw [hcodec]
      exact ⟨hns, toCome_kept rfl (by simp [hc]) (by simp [hc]) (by simp [hc])⟩
  case cRxArm =>
    by_cases hl : lineIn s = true
    · have hcodec := step_codec_of_arm hrst hr hc hst (exec_armCRxArm_high hl)
      rw [hcodec]
      exact ⟨hns, toCome_kept rfl (by simp [hc]) (by simp [hc]) (by simp [hc])⟩
    · have hcodec := step_codec_of_arm hrst hr hc hst (exec_armCRxArm_low hl)
      rw [hcodec]
      exact ⟨by simp [Codec.sending], toCome_kept rfl (by simp) (by simp [hc]) (by simp [hc])⟩
  case cRxSettle =>
    obtain ⟨-, -, hsettle, -⟩ := hp
    have hph := hsettle hc
    obtain hin | hlast : s.codec.ph < s.cfg.tSettle - 1 ∨ s.codec.ph = s.cfg.tSettle - 1 := by omega
    · have hcodec := step_codec_of_arm hrst hr hc hst (exec_armCRxSettle_inside hin)
      rw [hcodec]
      exact ⟨by simp [Codec.sending, hc], toCome_kept rfl (by simp [hc]) (by simp [hc]) (by simp [hc])⟩
    · have hcodec := step_codec_of_arm hrst hr hc hst (exec_armCRxSettle_last hlast)
      obtain ⟨-, e⟩ | ⟨-, e⟩ := Laws.takeSample_cases (lineIn s) s <;> rw [e] at hcodec <;> rw [hcodec] <;>
        exact ⟨by simp [Codec.sending], toCome_kept rfl (by simp) (by simp [hc]) (by simp [hc])⟩
  case cRxPush => exact step_cRxPush hrst hr hc hst

/-- With nothing to send the codec sends nothing in the next cycle either (`70_reset_and_hazards.md` R280). -/
theorem step_stays_quiet {s t : State} (hp : s.PhaseOk) (hrst : (input s).rst = false) (hr : s.orch.os ≠ .oReset)
    (hpush : NothingToPush s) (hquiet : ¬ s.codec.sending ∧ s.txq = []) (hst : step s = .next t) :
    ¬ t.codec.sending ∧ t.txq = [] := by
  obtain ⟨hns, hq⟩ := hquiet
  obtain ⟨hns', -⟩ := step_listening hp hrst (by simpa [restart] using hr) hns hq hst
  exact ⟨hns', (step_nothingToSend ⟨hq, hpush⟩ hrst hr hp hst).1⟩

/-! ### A codec that sends what is left of a request -/

theorem sendCycles_cTxWait {s : State} (hc : s.codec.cs = .cTxWait) :
    s.sendCycles = 1 + 8 * s.cfg.tSlot * s.txq.length + s.cfg.tStopLow := by
  simp only [State.sendCycles, hc]

theorem sendCycles_cTxBit {s : State} (hc : s.codec.cs = .cTxBit) :
    s.sendCycles = (s.cfg.tSlot - s.codec.ph) + (7 - s.codec.bitc.toNat) * s.cfg.tSlot +
      8 * s.cfg.tSlot * s.txq.length + s.cfg.tStopLow := by
  simp only [State.sendCycles, hc]

theorem sendCycles_cStop {s : State} (hc : s.codec.cs = .cStop) :
    s.sendCycles = s.cfg.tStopLow - s.codec.ph := by
  simp only [State.sendCycles, hc]

/-- A codec that sends needs at least one more cycle. -/
theorem sendCycles_pos {s : State} (hp : s.PhaseOk) (hs : s.codec.sending) : 0 < s.sendCycles := by
  obtain ⟨hbit, hstop, -⟩ := hp
  obtain hc | hc | hc := hs
  · rw [sendCycles_cTxWait hc]
    omega
  · have hph := hbit hc
    rw [sendCycles_cTxBit hc]
    omega
  · have hph := hstop hc
    rw [sendCycles_cStop hc]
    omega

/-- The codec sends the last words of a request: there is one if it waits for one, and none in STOP. -/
structure Sends (s : State) : Prop where
  sending : s.codec.sending
  word : s.codec.cs = .cTxWait → s.txq ≠ []
  stop : s.codec.cs = .cStop → s.txq = []

/-- What a cycle makes of a codec that sends the last words of a request, into `t`: one cycle less to send, or the
codec listens; it still has all response bytes to come. -/
def SendsOn (s t : State) : Prop :=
  t.codec.cs ≠ .cIdle ∧ t.codec.rxn = s.codec.rxn ∧
  ((Sends t ∧ t.sendCycles + 1 = s.sendCycles) ∨ (¬ t.codec.sending ∧ t.txq = []))

section
variable {s t : State}

/-- The first cycle of a byte: its eight slots and what is behind it in TXQ are still to be sent. -/
theorem sendCycles_of_takeData {w : TxWord} (hcfg : t.cfg = s.cfg) (hcodec : t.codec = (takeData w s).codec) :
    Sends t ∧ t.sendCycles = 8 * s.cfg.tSlot * (t.txq.length + 1) + s.cfg.tStopLow := by
  rw [Laws.takeData_codec] at hcodec
  have hc : t.codec.cs = .cTxBit := by rw [hcodec]
  refine ⟨⟨.inr (.inl hc), by simp [hc], by simp [hc]⟩, ?_⟩
  have hph : t.codec.ph = 0 := by rw [hcodec]
  have hbitc : t.codec.bitc.toNat = 0 := by rw [hcodec]; rfl
  rw [sendCycles_cTxBit hc, hcfg, hph, hbitc, Nat.sub_zero]
  ring

/-- The codec takes the first word of the request (R125). -/
theorem sendsOn_cTxWait (hrst : (input s).rst = false) (hr : restart s = false) (hst : step s = .next t)
    (htx : t.txq = leftTx s) (hc : s.codec.cs = .cTxWait) (hne : s.txq ≠ []) : SendsOn s t := by
  obtain ⟨w, q, hwq⟩ := List.exists_cons_of_ne_nil hne
  have hcodec := step_codec_of_arm hrst hr hc hst (exec_armCTxWait_cons hwq)
  rw [leftTx_of_takesWord (.inr (.inl hc)), hwq, List.tail_cons] at htx
  obtain ⟨hsends, hcycles⟩ := sendCycles_of_takeData (step_cfg hst) hcodec
  refine ⟨by rw [hcodec]; simp, by rw [hcodec]; rfl, .inl ⟨hsends, ?_⟩⟩
  rw [hcycles, sendCycles_cTxWait hc, htx, hwq, List.length_cons]
  ring

/-- A cycle after which the codec is still in `C_TXBIT` and has one cycle less to send. -/
theorem sendsOn_of_cTxBit (hc : t.codec.cs = .cTxBit) (hrxn : t.codec.rxn = s.codec.rxn)
    (hcycles : t.sendCycles + 1 = s.sendCycles) : SendsOn s t :=
  ⟨by simp [hc], hrxn, .inl ⟨⟨.inr (.inl hc), by simp [hc], by simp [hc]⟩, hcycles⟩⟩

/-- The codec sends one more cycle of a slot (R126). -/
theorem sendsOn_inside (hrst : (input s).rst = false) (hr : restart s = false) (hst : step s = .next t)
    (htx : t.txq = leftTx s) (hc : s.codec.cs = .cTxBit) (hin : s.codec.ph < s.cfg.tSlot - 1) : SendsOn s t := by
  have hcodec := step_codec_cTxBit hrst hr hc hst (exec_armCTxBit_inside hin)
  rw [Laws.setCodec_codec] at hcodec
  rw [leftTx_of_not_takesWord (by simp [TakesWord, hc, hin.ne])] at htx
  have hc' : t.codec.cs = .cTxBit := by rw [hcodec, hc]
  have hph : t.codec.ph = s.codec.ph + 1 := by rw [hcodec]
  have hbitc : t.codec.bitc = s.codec.bitc := by rw [hcodec]
  refine sendsOn_of_cTxBit hc' (by rw [hcodec]) ?_
  rw [sendCycles_cTxBit hc', sendCycles_cTxBit hc, step_cfg hst, htx, hph, hbitc]
  omega

/-- The codec begins the next slot of a byte (R127). -/
theorem sendsOn_nextSlot (hpos : 0 < s.cfg.tSlot) (hrst : (input s).rst = false) (hr : restart s = false)
    (hst : step s = .next t) (htx : t.txq = leftTx s) (hc : s.codec.cs = .cTxBit)
    (hlast : s.codec.ph = s.cfg.tSlot - 1) (hb : s.codec.bitc < 7#3) : SendsOn s t := by
  have hcodec := step_codec_cTxBit hrst hr hc hst (exec_armCTxBit_nextSlot hlast hb)
  rw [Laws.setCodec_codec] at hcodec
  have h7 : s.codec.bitc ≠ 7#3 := by bv_omega
  rw [leftTx_of_not_takesWord (by simp [TakesWord, hc, h7])] at htx
  have hc' : t.codec.cs = .cTxBit := by rw [hcodec, hc]
  have hph : t.codec.ph = 0 := by rw [hcodec]
  have hbitc : 7 - s.codec.bitc.toNat = 7 - t.codec.bitc.toNat + 1 := by
    rw [hcodec]
    bv_omega
  have hslots : (7 - s.codec.bitc.toNat) * s.cfg.tSlot = (7 - t.codec.bitc.toNat) * s.cfg.tSlot + s.cfg.tSlot := by
    rw [hbitc, Nat.succ_mul]
  refine sendsOn_of_cTxBit hc' (by rw [hcodec]) ?_
  rw [sendCycles_cTxBit hc', sendCycles_cTxBit hc, step_cfg hst, htx, hph, hslots]
  omega

/-- The codec begins the next word, or STOP (R128). -/
theorem sendsOn_boundary (hpos : 0 < s.cfg.tSlot) (hrst : (input s).rst = false) (hr : restart s = false)
    (hst : step s = .next t) (htx : t.txq = leftTx s) (hc : s.codec.cs = .cTxBit)
    (hlast : s.codec.ph = s.cfg.tSlot - 1) (h7 : s.codec.bitc = 7#3) : SendsOn s t := by
  have hcfg := step_cfg hst
  have hcodec := step_codec_cTxBit hrst hr hc hst (exec_armCTxBit_boundary hlast h7)
  rw [leftTx_of_takesWord (.inr (.inr ⟨hc, hlast, h7⟩))] at htx
  have hcycles : s.sendCycles = 1 + 8 * s.cfg.tSlot * s.txq.length + s.cfg.tStopLow := by
    have hbitc : 7 - s.codec.bitc.toNat = 0 := by rw [h7]; rfl
    rw [sendCycles_cTxBit hc, hbitc, Nat.zero_mul]
    omega
  cases hq : s.txq with
  | nil =>
    rw [byteBoundary_nil hq, Laws.setCodec_codec] at hcodec
    rw [hq, List.tail_nil] at htx
    have hc' : t.codec.cs = .cStop := by rw [hcodec]
    have hph : t.codec.ph = 0 := by rw [hcodec]
    refine ⟨by simp [hc'], by rw [hcodec], .inl ⟨⟨.inr (.inr hc'), by simp [hc'], fun _ => htx⟩, ?_⟩⟩
    rw [sendCycles_cStop hc', hcycles, hcfg, hph, hq, List.length_nil]
    omega
  | cons w q =>
    rw [byteBoundary_cons hq] at hcodec
    rw [hq, List.tail_cons] at htx
    obtain ⟨hsends, hcycles'⟩ := sendCycles_of_takeData hcfg hcodec
    refine ⟨by rw [hcodec]; simp, by rw [hcodec]; rfl, .inl ⟨hsends, ?_⟩⟩
    rw [hcycles', hcycles, htx, hq, List.length_cons]
    omega

/-- A cycle of `C_TXBIT`. -/
theorem sendsOn_cTxBit (hph : s.codec.ph < s.cfg.tSlot) (hrst : (input s).rst = false) (hr : restart s = false)
    (hst : step s = .next t) (htx : t.txq = leftTx s) (hc : s.codec.cs = .cTxBit) : SendsOn s t := by
  have hpos := Nat.zero_lt_of_lt hph
  obtain hin | hlast : s.codec.ph < s.cfg.tSlot - 1 ∨ s.codec.ph = s.cfg.tSlot - 1 := by omega
  · exact sendsOn_inside hrst hr hst htx hc hin
  obtain hb | h7 : s.codec.bitc < 7#3 ∨ s.codec.bitc = 7#3 := by bv_omega
  · exact sendsOn_nextSlot hpos hrst hr hst htx hc hlast hb
  · exact sendsOn_boundary hpos hrst hr hst htx hc hlast h7

/-- The codec sends one more cycle of STOP, or listens (R129). -/
theorem sendsOn_cStop (hph : s.codec.ph < s.cfg.tStopLow) (hrst : (input s).rst = false) (hr : restart s = false)
    (hst : step s = .next t) (htx : t.txq = leftTx s) (hc : s.codec.cs = .cStop) (hq : s.txq = []) : SendsOn s t := by
  rw [leftTx_of_not_takesWord (by simp [TakesWord, hc]), hq] at htx
  obtain hin | hlast : s.codec.ph < s.cfg.tStopLow - 1 ∨ s.codec.ph = s.cfg.tStopLow - 1 := by omega
  · have hcodec := step_codec_of_arm hrst hr hc hst (exec_armCStop_inside hin)
    rw [Laws.setCodec_codec] at hcodec
    have hc' : t.codec.cs = .cStop := by rw [hcodec, hc]
    have hph' : t.codec.ph = s.codec.ph + 1 := by rw [hcodec]
    refine ⟨by simp [hc'], by rw [hcodec], .inl ⟨⟨.inr (.inr hc'), by simp [hc'], fun _ => htx⟩, ?_⟩⟩
    rw [sendCycles_cStop hc', sendCycles_cStop hc, step_cfg hst, hph']
    omega
  · have hcodec := step_codec_of_arm hrst hr hc hst (exec_armCStop_last hlast)
    rw [Laws.setCodec_codec] at hcodec
    exact ⟨by simp [hcodec], by rw [hcodec], .inr ⟨by simp [Codec.sending, hcodec], htx⟩⟩

/-- A cycle of a codec that sends the last words of a request. -/
theorem step_sends (hp : s.PhaseOk) (hrst : (input s).rst = false) (hr : restart s = false) (h : Sends s)
    (hst : step s = .next t) (htx : t.txq = leftTx s) : SendsOn s t := by
  obtain ⟨hbit, hstop, -⟩ := hp
  obtain hc | hc | hc := h.sending
  · exact sendsOn_cTxWait hrst hr hst htx hc (h.word hc)
  · exact sendsOn_cTxBit (hbit hc) hrst hr hst htx hc
  · exact sendsOn_cStop (hstop hc) hrst hr hst htx hc (h.stop hc)

end

end Sys2Proof.Proofs
end

section
/-! How the orchestrator feeds the codec with a request (`41_orchestrator.md` R164 to R166, R171): from the restart to
the last request word, TXQ is never short of a word when the codec needs one. -/

namespace Sys2Proof.Proofs

open Sys2Proof.Machine

/-! ### The registers of the orchestrator in `O_CTRL` and `O_REQ` -/

/-- The expected length is in its range (`10_state.md` R42). -/
def RslenOk (s : State) : Prop := 1 ≤ s.orch.rslen ∧ s.orch.rslen ≤ 32

/-- The expected length is written at the start of a transfer and by reset only, with a value in its range. -/
theorem step_rslenOk {s t : State} (h : RslenOk s) (hst : step s = .next t) : RslenOk t := by
  obtain ⟨-, rfl⟩ | ⟨hrst, -⟩ := Laws.step_next_cases hst
  · exact (by decide : 1 ≤ 1 ∧ 1 ≤ 32)
  · rw [RslenOk]
    cases step_orchStep hrst hst
    case start ho hlegal e =>
      obtain ⟨-, -, hr, hr32⟩ := (Laws.operandsLegal_iff _ _ _).mp hlegal
      rw [e]
      exact ⟨hr, hr32⟩
    all_goals
      rename_i e
      rw [e]
      exact h

/-- `O_CTRL` comes after `O_RESET`; it lasts as long as TXQ is full. -/
theorem OrchStep.to_oCtrl {s : State} {o : Orch} (h : OrchStep s o) (ho : o.os = .oCtrl) :
    s.orch.os = .oReset ∨ (s.orch.os = .oCtrl ∧ s.cfg.qdTx ≤ s.txq.length) := by
  cases h
  case reset hs e => exact .inl hs
  case ctrlFull hs hq e => exact .inr ⟨hs, hq⟩
  all_goals
    rename_i e
    simp_all

/-- `O_REQ` comes after `O_CTRL`; while it lasts `idx` counts the words pushed. -/
theorem OrchStep.to_oReq {s : State} {o : Orch} (h : OrchStep s o) (ho : o.os = .oReq) :
    (s.orch.os = .oCtrl ∧ s.txq.length < s.cfg.qdTx ∧ o = { s.orch with idx := 0, os := .oReq }) ∨
    (s.orch.os = .oReq ∧ o = { s.orch with idx := s.orch.idx + (pushedTx s).length }) := by
  cases h
  case ctrl hs hq e => exact .inl ⟨hs, hq, e⟩
  case reqMore hs hq hi e => exact .inr ⟨hs, by rw [pushedTx_oReq hs hq]; exact e⟩
  case reqFull hs hq e =>
    have hpush : pushedTx s = [] := if_neg (Nat.not_lt.mpr hq)
    exact .inr ⟨hs, by rw [hpush]; exact e⟩
  all_goals
    rename_i e
    simp_all

/-! ### The codec while it is being fed -/

/-- The codec has taken the control word of a response of `r` bytes; of the `p` request words pushed so far TXQ holds
those it has not taken, one at least from the second cycle of a byte on (`41_orchestrator.md` R171). -/
def FedWith (p r : Nat) (s : State) : Prop :=
  s.codec.rxn.toNat + 1 = r ∧
  ((s.codec.cs = .cTxWait ∧ s.txq.length = p) ∨
    (s.codec.cs = .cTxBit ∧ s.txq.length + 1 ≤ p ∧ (s.txq = [] → s.codec.bitc = 0#3 ∧ s.codec.ph = 0)))

theorem reqInStep_iff (s : State) : s.ReqInStep ↔ (s.orch.os = .oReq → s.rxq = [] ∧
    ((s.codec.cs = .cIdle ∧ s.orch.idx = 0 ∧ s.txq = [controlWord (lenm1 s.orch.rslen)]) ∨
      FedWith s.orch.idx s.orch.rslen s)) := by
  simp only [State.ReqInStep, FedWith]
  tauto

/-- The length field of the control word gives the expected length back (`30_encoding.md` R106 (a)). -/
theorem lenm1_toNat_add_one {r : Nat} (h : 1 ≤ r ∧ r ≤ 32) : (lenm1 r).toNat + 1 = r := by
  rw [lenm1, BitVec.toNat_ofNat]
  omega

/-- In `O_REQ` the step pushes a word whenever TXQ is left empty. -/
theorem pushedTx_length_of_txq_nil {s : State} (ho : s.orch.os = .oReq) (hq : s.txq = []) :
    (pushedTx s).length = 1 := by
  obtain ⟨-, hdepth, -⟩ := s.cfg.legal
  rw [pushedTx_oReq ho (by rw [hq]; exact hdepth), List.length_singleton]

section
variable {s t : State}

/-- The codec takes the control word. -/
theorem fedWith_cIdle (hrst : (input s).rst = false) (hr : restart s = false) (hst : step s = .next t)
    (htx : t.txq = leftTx s ++ pushedTx s) (hc : s.codec.cs = .cIdle) {r : Nat} (hrs : 1 ≤ r ∧ r ≤ 32)
    (hq : s.txq = [controlWord (lenm1 r)]) : FedWith (pushedTx s).length r t := by
  have hcodec := step_codec_of_arm hrst hr hc hst (exec_armCIdle_cons hq)
  rw [Laws.takeControl_codec, Laws.lenm1Of_controlWord] at hcodec
  rw [leftTx_of_takesWord (.inl hc), hq, List.tail_cons, List.nil_append] at htx
  exact ⟨by rw [hcodec]; exact lenm1_toNat_add_one hrs, .inl ⟨by rw [hcodec], by rw [htx]⟩⟩

/-- The codec takes a request word that is there: the words left in TXQ and the one taken are those pushed before. -/
theorem fedWith_takeData {w : TxWord} {q : List TxWord} (hq : s.txq = w :: q) (htx : t.txq = leftTx s ++ pushedTx s)
    (hw : TakesWord s) (hcodec : t.codec = (takeData w s).codec) {p r : Nat} (hp : s.txq.length ≤ p)
    (hrxn : s.codec.rxn.toNat + 1 = r) : FedWith (p + (pushedTx s).length) r t := by
  rw [leftTx_of_takesWord hw, hq, List.tail_cons] at htx
  rw [hq, List.length_cons] at hp
  refine ⟨by rw [hcodec]; exact hrxn, .inr ⟨by rw [hcodec]; rfl, ?_, fun _ => by rw [hcodec]; exact ⟨rfl, rfl⟩⟩⟩
  rw [htx, List.length_append]
  omega

/-- The codec waits for the first request word. -/
theorem fedWith_cTxWait (hrst : (input s).rst = false) (hr : restart s = false) (hst : step s = .next t)
    (htx : t.txq = leftTx s ++ pushedTx s) (hc : s.codec.cs = .cTxWait) {r : Nat}
    (hrxn : s.codec.rxn.toNat + 1 = r) : FedWith (s.txq.length + (pushedTx s).length) r t := by
  cases hq : s.txq with
  | nil =>
    have hcodec := step_codec_of_arm hrst hr hc hst (exec_armCTxWait_nil hq)
    rw [leftTx_of_takesWord (.inr (.inl hc)), hq, List.tail_nil, List.nil_append] at htx
    exact ⟨by rw [hcodec]; exact hrxn, .inl ⟨by rw [hcodec, hc], by rw [htx, List.length_nil, Nat.zero_add]⟩⟩
  | cons w q =>
    have hcodec := step_codec_of_arm hrst hr hc hst (exec_armCTxWait_cons hq)
    exact fedWith_takeData hq htx (.inr (.inl hc)) hcodec (by rw [hq]) hrxn

/-- A codec that takes no word goes on sending its byte. -/
theorem cTxBit_kept (hph : s.codec.ph < s.cfg.tSlot) (hrst : (input s).rst = false) (hr : restart s = false)
    (hst : step s = .next t) (hc : s.codec.cs = .cTxBit) (hw : ¬ TakesWord s) :
    t.codec.cs = .cTxBit ∧ t.codec.rxn = s.codec.rxn := by
  obtain hin | hlast : s.codec.ph < s.cfg.tSlot - 1 ∨ s.codec.ph = s.cfg.tSlot - 1 := by omega
  · rw [step_codec_cTxBit hrst hr hc hst (exec_armCTxBit_inside hin)]
    exact ⟨hc, rfl⟩
  · have h7 : s.codec.bitc ≠ 7#3 := fun h7 => hw (.inr (.inr ⟨hc, hlast, h7⟩))
    rw [step_codec_cTxBit hrst hr hc hst (exec_armCTxBit_nextSlot hlast (by bv_omega))]
    exact ⟨hc, rfl⟩

/-- The codec sends a byte: at its boundary the next word is there, and from its first cycle on one is pushed if TXQ is
empty. -/
theorem fedWith_cTxBit (hph : s.codec.ph < s.cfg.tSlot) (hrst : (input s).rst = false) (hr : restart s = false)
    (hst : step s = .next t) (htx : t.txq = leftTx s ++ pushedTx s) (ho : s.orch.os = .oReq)
    (hc : s.codec.cs = .cTxBit) {p r : Nat} (hp : s.txq.length + 1 ≤ p)
    (hnil : s.txq = [] → s.codec.bitc = 0#3 ∧ s.codec.ph = 0) (hrxn : s.codec.rxn.toNat + 1 = r) :
    FedWith (p + (pushedTx s).length) r t := by
  by_cases hw : TakesWord s
  · obtain ⟨hlast, h7⟩ : s.codec.ph = s.cfg.tSlot - 1 ∧ s.codec.bitc = 7#3 := by simpa [TakesWord, hc] using hw
    have hne : s.txq ≠ [] := fun hq => by
      obtain ⟨h0, -⟩ := hnil hq
      simp [h7] at h0
    obtain ⟨w, q, hwq⟩ := List.exists_cons_of_ne_nil hne
    have hcodec := step_codec_cTxBit hrst hr hc hst (exec_armCTxBit_boundary hlast h7)
    rw [byteBoundary_cons hwq] at hcodec
    exact fedWith_takeData hwq htx hw hcodec (by omega) hrxn
  · obtain ⟨hc', hrxn'⟩ := cTxBit_kept hph hrst hr hst hc hw
    rw [leftTx_of_not_takesWord hw] at htx
    refine ⟨by rw [hrxn']; exact hrxn, .inr ⟨hc', ?_, fun hq => ?_⟩⟩
    · rw [htx, List.length_append]
      omega
    · rw [htx, List.append_eq_nil_iff] at hq
      obtain ⟨hq, hpush⟩ := hq
      have hone := pushedTx_length_of_txq_nil ho hq
      simp [hpush] at hone

/-- While request words are being pushed the codec stays fed, and RXQ empty. -/
theorem step_fedWith (hp : s.PhaseOk) (hrs : RslenOk s) (hrst : (input s).rst = false) (ho : s.orch.os = .oReq)
    (hin : s.ReqInStep) (hst : step s = .next t) :
    t.rxq = [] ∧ FedWith (s.orch.idx + (pushedTx s).length) s.orch.rslen t := by
  have hne : s.orch.os ≠ .oReset := by simp [ho]
  have hr : restart s = false := by simpa [restart] using hne
  obtain ⟨htx, hrx⟩ := step_queues hrst hp hst hne
  obtain ⟨hrxq, hcases⟩ := (reqInStep_iff s).mp hin ho
  have hnopush : s.codec.cs ≠ .cRxPush := by
    obtain ⟨hc, -⟩ | ⟨-, ⟨hc, -⟩ | ⟨hc, -⟩⟩ := hcases <;> simp [hc]
  refine ⟨by simp [hrx, leftRx, pushedRx, ho, hnopush, hrxq], ?_⟩
  obtain ⟨hc, hidx, hq⟩ | ⟨hrxn, ⟨hc, hlen⟩ | ⟨hc, hlen, hnil⟩⟩ := hcases
  · rw [hidx, Nat.zero_add]
    exact fedWith_cIdle hrst hr hst htx hc hrs hq
  · rw [← hlen]
    exact fedWith_cTxWait hrst hr hst htx hc hrxn
  · exact fedWith_cTxBit (hp.1 hc) hrst hr hst htx ho hc hlen hnil hrxn

/-! ### What the steps keep up to the last request word -/

/-- The restart leaves the codec idle and both queues empty (R164). -/
theorem step_ctrlInStep (hin : s.CtrlInStep) (hst : step s = .next t) : t.CtrlInStep := by
  obtain ⟨-, rfl⟩ | ⟨hrst, -⟩ := Laws.step_next_cases hst
  · exact fun _ => ⟨rfl, rfl, rfl⟩
  · intro ho
    obtain hs | ⟨hs, hq⟩ := (step_orchStep hrst hst).to_oCtrl ho
    · obtain ⟨htx, hrx⟩ := step_queues_of_restart hrst hst hs
      have hcodec : t.codec = .reset := step_codec_of_restart hrst ((Laws.restart_iff s).mpr hs) hst
      exact ⟨by rw [hcodec]; rfl, htx, hrx⟩
    · obtain ⟨-, htx, -⟩ := hin hs
      obtain ⟨-, hdepth, -⟩ := s.cfg.legal
      rw [htx] at hq
      exact absurd hq (Nat.not_le.mpr hdepth)

/-- The control word is pushed while the codec is idle (R165). -/
theorem reqInStep_of_oCtrl (hp : s.PhaseOk) (hrst : (input s).rst = false) (ho : s.orch.os = .oCtrl)
    (hin : s.CtrlInStep) (hst : step s = .next t) (hq : s.txq.length < s.cfg.qdTx)
    (horch : t.orch = { s.orch with idx := 0, os := .oReq }) : t.ReqInStep := by
  obtain ⟨hc, htxq, hrxq⟩ := hin ho
  have hne : s.orch.os ≠ .oReset := by simp [ho]
  obtain ⟨htx, hrx⟩ := step_queues hrst hp hst hne
  have hcodec := step_codec_of_arm hrst (by simpa [restart] using hne) hc hst (exec_armCIdle_nil htxq)
  rw [leftTx_of_takesWord (.inl hc), htxq, pushedTx_oCtrl ho hq, List.tail_nil, List.nil_append] at htx
  refine fun _ => ⟨by simp [hrx, leftRx, pushedRx, ho, hc, hrxq], .inl ⟨by rw [hcodec, hc], ?_, ?_⟩⟩
  · rw [horch]
  · rw [htx, horch]

/-- In `O_REQ` the codec is never short of a request word (R171). -/
theorem step_reqInStep (hp : s.PhaseOk) (hrs : RslenOk s) (hctrl : s.CtrlInStep) (hreq : s.ReqInStep)
    (hst : step s = .next t) : t.ReqInStep := by
  obtain ⟨-, rfl⟩ | ⟨hrst, -⟩ := Laws.step_next_cases hst
  · exact fun ho => by cases ho
  · rw [reqInStep_iff]
    intro ho
    obtain ⟨hs, hq, e⟩ | ⟨hs, e⟩ := (step_orchStep hrst hst).to_oReq ho
    · exact (reqInStep_iff t).mp (reqInStep_of_oCtrl hp hrst hs hctrl hst hq e) ho
    · obtain ⟨hrxq, hfed⟩ := step_fedWith hp hrs hrst hs hreq hst
      rw [e]
      exact ⟨hrxq, .inr hfed⟩

end

/-! ### The request on every run -/

/-- What keeps a request from being cut short, whatever the configuration. -/
structure NeverShort (s : State) : Prop where
  phaseOk : s.PhaseOk
  rslenOk : RslenOk s
  ctrlInStep : s.CtrlInStep
  reqInStep : s.ReqInStep

theorem step_neverShort {s t : State} (h : NeverShort s) (hst : step s = .next t) : NeverShort t where
  phaseOk := step_phaseOk h.phaseOk hst
  rslenOk := step_rslenOk h.rslenOk hst
  ctrlInStep := step_ctrlInStep h.ctrlInStep hst
  reqInStep := step_reqInStep h.phaseOk h.rslenOk h.ctrlInStep h.reqInStep hst

theorem rslenOk_of_inv {s : State} (h : s.Inv) : RslenOk s := by
  obtain ⟨-, -, ⟨-, -, -, -, hr, hr32, -⟩, -⟩ := h
  exact ⟨hr, hr32⟩

theorem neverShort_of_inv {s : State} (hinv : s.Inv) (hctrl : s.CtrlInStep) (hreq : s.ReqInStep) : NeverShort s := by
  have hrs := rslenOk_of_inv hinv
  obtain ⟨-, hp, -⟩ := hinv
  exact ⟨hp, hrs, hctrl, hreq⟩

/-- Settles O6: in `O_REQ` TXQ is empty in the first cycle of a byte at most, which is not the last of its eighth
slot. -/
theorem requestNeverCutShort : Obligations.RequestNeverCutShort := by
  intro k s t hinv hctrl hreq hrun ho hc _ h7 hq
  have hnever := cycles_keeps step_neverShort (neverShort_of_inv hinv hctrl hreq) hrun
  obtain ⟨-, hcases⟩ := (reqInStep_iff t).mp hnever.reqInStep ho
  obtain ⟨hc', -⟩ | ⟨-, ⟨hc', -⟩ | ⟨-, -, hnil⟩⟩ := hcases
  · simp [hc] at hc'
  · simp [hc] at hc'
  · obtain ⟨h0, -⟩ := hnil hq
    simp [h7] at h0

end Sys2Proof.Proofs
end

section
/-! The codec stays in step with the transfer (`41_orchestrator.md` R171, `70_reset_and_hazards.md` R280, R281): the
request is off the wire before the timeout can come, and every expected byte is collected, queued or still to come. -/

namespace Sys2Proof.Proofs

open Sys2Proof.Machine

/-! ### The bytes of the response -/

/-- Every expected byte is collected, in RXQ, or still to come from the codec. -/
def ResponseWhole (s : State) : Prop := s.orch.idx + s.rxq.length + toCome s.codec = s.orch.rslen

theorem responseWhole_iff (s : State) : ResponseWhole s ↔
    (s.codec.cs = .cIdle → s.orch.idx + s.rxq.length = s.orch.rslen) ∧
    (s.codec.cs ≠ .cIdle → s.orch.idx + s.rxq.length + s.codec.rxn.toNat + 1 = s.orch.rslen) := by
  by_cases hc : s.codec.cs = .cIdle
  · simp [ResponseWhole, toCome_of_cIdle hc, hc]
  · simp [ResponseWhole, toCome_of_ne hc, hc, Nat.add_assoc]

/-- The request is still being sent and will be off the wire in time, or it has been sent. -/
def RequestInTime (s : State) : Prop :=
  (Sends s ∧ s.rxq = [] ∧ s.orch.idx = 0 ∧
    s.sendCycles + s.orch.tmr ≤ 8 * s.orch.rqlen * s.cfg.tSlot + s.cfg.tStopLow + 2) ∨
  (¬ s.codec.sending ∧ s.txq = [])

theorem requestInTime_iff (s : State) : RequestInTime s ↔
    (s.codec.sending ∧ s.rxq = [] ∧ s.orch.idx = 0 ∧ (s.codec.cs = .cTxWait → s.txq ≠ []) ∧
      (s.codec.cs = .cStop → s.txq = []) ∧
      s.sendCycles + s.orch.tmr ≤ 8 * s.orch.rqlen * s.cfg.tSlot + s.cfg.tStopLow + 2) ∨
    (¬ s.codec.sending ∧ s.txq = []) :=
  or_congr_left ⟨fun ⟨⟨hs, hw, hstop⟩, hrxq, hidx, hbound⟩ => ⟨hs, hrxq, hidx, hw, hstop, hbound⟩,
    fun ⟨hs, hrxq, hidx, hw, hstop, hbound⟩ => ⟨⟨hs, hw, hstop⟩, hrxq, hidx, hbound⟩⟩

theorem collectInStep_iff (s : State) :
    s.CollectInStep ↔ (s.orch.os = .oCollect → RequestInTime s ∧ ResponseWhole s) := by
  rw [requestInTime_iff, responseWhole_iff]

section
variable {s t : State}

/-! ### From the last request word on -/

/-- After the last request word has been pushed the codec has no more to send than the whole request. -/
theorem sends_of_fedWith {p r : Nat} (hp : 1 ≤ p) (h : FedWith p r t) :
    Sends t ∧ t.codec.cs ≠ .cIdle ∧ t.sendCycles ≤ 8 * p * t.cfg.tSlot + t.cfg.tStopLow + 2 := by
  obtain ⟨-, ⟨hc, hlen⟩ | ⟨hc, hlen, -⟩⟩ := h
  · refine ⟨⟨.inl hc, fun _ hq => ?_, by simp [hc]⟩, by simp [hc], ?_⟩
    · rw [hq, List.length_nil] at hlen
      omega
    · rw [sendCycles_cTxWait hc, hlen, Nat.mul_right_comm]
      omega
  · refine ⟨⟨.inr (.inl hc), by simp [hc], by simp [hc]⟩, by simp [hc], ?_⟩
    have hslots : (7 - t.codec.bitc.toNat) * t.cfg.tSlot ≤ 7 * t.cfg.tSlot :=
      Nat.mul_le_mul_right _ (Nat.sub_le _ _)
    have hwords : 8 * t.cfg.tSlot * (t.txq.length + 1) ≤ 8 * p * t.cfg.tSlot := by
      rw [Nat.mul_right_comm 8 p]
      exact Nat.mul_le_mul_left _ hlen
    rw [sendCycles_cTxBit hc]
    rw [Nat.mul_succ] at hwords
    omega

/-- The collection begins with the whole response to come. -/
theorem inTime_whole_of_reqLast (hp : s.PhaseOk) (hrs : RslenOk s) (hidx : s.orch.idx < s.orch.rqlen)
    (hrst : (input s).rst = false) (ho : s.orch.os = .oReq) (hin : s.ReqInStep) (hst : step s = .next t)
    (hq : s.txq.length < s.cfg.qdTx) (hi : s.orch.idx = s.orch.rqlen - 1)
    (horch : t.orch = { s.orch with idx := 0, tmr := 0, os := .oCollect }) : RequestInTime t ∧ ResponseWhole t := by
  obtain ⟨hrxq, hfed⟩ := step_fedWith hp hrs hrst ho hin hst
  have hlast : s.orch.idx + (pushedTx s).length = s.orch.rqlen := by
    rw [pushedTx_oReq ho hq, List.length_singleton]
    omega
  rw [hlast] at hfed
  obtain ⟨hsends, hc, hcycles⟩ := sends_of_fedWith (by omega) hfed
  obtain ⟨hrxn, -⟩ := hfed
  have hidx' : t.orch.idx = 0 := by rw [horch]
  refine ⟨.inl ⟨hsends, hrxq, hidx', ?_⟩, ?_⟩
  · rw [horch]
    exact hcycles
  · rw [ResponseWhole, hidx', hrxq, toCome_of_ne hc, hrxn, List.length_nil, Nat.zero_add, horch]

/-! ### While the response is collected -/

/-- A timeout comes after the request has left the wire (`70_reset_and_hazards.md` R281). -/
theorem quiet_of_timeout (hsafe : s.RestartSafe) (hp : s.PhaseOk) (hq3 : s.orch.rqlen ≤ 3)
    (ht : s.orch.tmr = timeoutCycles s.cfg) (hin : RequestInTime s) : ¬ s.codec.sending ∧ s.txq = [] := by
  obtain ⟨hsends, -, -, hbound⟩ | hquiet := hin
  · have hpos := sendCycles_pos hp hsends.sending
    have hbytes : 8 * s.orch.rqlen * s.cfg.tSlot ≤ 8 * 3 * s.cfg.tSlot := by gcongr
    have hsafe' : 8 * 3 * s.cfg.tSlot + s.cfg.tStopLow + 2 ≤ 600 * s.cfg.nUs := hsafe
    rw [ht, timeoutCycles] at hbound
    omega
  · exact hquiet

/-- No byte of the response comes before the request has left the wire. -/
theorem quiet_of_byte (hq : s.rxq ≠ []) (hin : RequestInTime s) : ¬ s.codec.sending ∧ s.txq = [] :=
  hin.resolve_left fun ⟨_, hrxq, _⟩ => hq hrxq

theorem pushedTx_nil (ho : s.orch.os = .oCollect) : pushedTx s = [] :=
  List.length_eq_zero_iff.mp (by simp [pushedTx_length, ho])

/-- Before the timeout a collecting orchestrator takes a byte if there is one. -/
theorem leftRx_collecting (ho : s.orch.os = .oCollect) (ht : s.orch.tmr ≠ timeoutCycles s.cfg) :
    leftRx s = s.rxq.tail :=
  if_pos ⟨ho, ht⟩

/-- With the request off the wire, bytes pass from the codec to RXQ and from there to the response, and none is
lost. -/
theorem collect_quiet (hp : s.PhaseOk) (hrst : (input s).rst = false) (ho : s.orch.os = .oCollect)
    (ht : s.orch.tmr ≠ timeoutCycles s.cfg) (hquiet : ¬ s.codec.sending ∧ s.txq = []) (hwhole : ResponseWhole s)
    (hst : step s = .next t) (hrslen : t.orch.rslen = s.orch.rslen)
    (hidx : t.orch.idx + s.rxq.tail.length = s.orch.idx + s.rxq.length) : RequestInTime t ∧ ResponseWhole t := by
  have hne : s.orch.os ≠ .oReset := by simp [ho]
  obtain ⟨-, hrx⟩ := step_queues hrst hp hst hne
  obtain ⟨hns, hq⟩ := hquiet
  obtain ⟨-, hcount⟩ := step_listening hp hrst (by simpa [restart] using hne) hns hq hst
  refine ⟨.inr (step_stays_quiet hp hrst hne (by simp [NothingToPush, ho]) ⟨hns, hq⟩ hst), ?_⟩
  rw [ResponseWhole, hrx, leftRx_collecting ho ht, List.length_append, hrslen]
  rw [ResponseWhole] at hwhole
  omega

/-- While the request is on the wire, waiting uses up one of the cycles it has left. -/
theorem wait_sends (hp : s.PhaseOk) (hrst : (input s).rst = false) (ho : s.orch.os = .oCollect)
    (ht : s.orch.tmr ≠ timeoutCycles s.cfg) (hsends : Sends s) (hrxq : s.rxq = []) (hidx : s.orch.idx = 0)
    (hbound : s.sendCycles + s.orch.tmr ≤ 8 * s.orch.rqlen * s.cfg.tSlot + s.cfg.tStopLow + 2)
    (hwhole : ResponseWhole s) (hst : step s = .next t) (horch : t.orch = { s.orch with tmr := s.orch.tmr + 1 }) :
    RequestInTime t ∧ ResponseWhole t := by
  have hne : s.orch.os ≠ .oReset := by simp [ho]
  have hcs : s.codec.cs ≠ .cIdle ∧ s.codec.cs ≠ .cRxPush := by
    obtain hc | hc | hc := hsends.sending <;> simp [hc]
  obtain ⟨hidle, hnopush⟩ := hcs
  obtain ⟨htx, hrx⟩ := step_queues hrst hp hst hne
  rw [pushedTx_nil ho, List.append_nil] at htx
  have hrxq' : t.rxq = [] := by simp [hrx, leftRx_collecting ho ht, hrxq, pushedRx, hnopush]
  obtain ⟨hidle', hrxn, hon⟩ := step_sends hp hrst (by simpa [restart] using hne) hsends hst htx
  constructor
  · obtain ⟨hsends', hcycles⟩ | hquiet := hon
    · refine .inl ⟨hsends', hrxq', by rw [horch, hidx], ?_⟩
      rw [horch, step_cfg hst]
      change t.sendCycles + (s.orch.tmr + 1) ≤ 8 * s.orch.rqlen * s.cfg.tSlot + _ + 2
      omega
    · exact .inr hquiet
  · rw [ResponseWhole, toCome_of_ne hidle, hrxq] at hwhole
    rw [ResponseWhole, toCome_of_ne hidle', hrxq', hrxn, horch]
    exact hwhole

/-- A cycle in which no byte is there and the timeout has not come. -/
theorem inTime_whole_of_wait (hp : s.PhaseOk) (hrst : (input s).rst = false) (ho : s.orch.os = .oCollect)
    (ht : s.orch.tmr ≠ timeoutCycles s.cfg) (hq : s.rxq = []) (hin : RequestInTime s) (hwhole : ResponseWhole s)
    (hst : step s = .next t) (horch : t.orch = { s.orch with tmr := s.orch.tmr + 1 }) :
    RequestInTime t ∧ ResponseWhole t := by
  obtain ⟨hsends, hrxq, hidx, hbound⟩ | hquiet := hin
  · exact wait_sends hp hrst ho ht hsends hrxq hidx hbound hwhole hst horch
  · exact collect_quiet hp hrst ho ht hquiet hwhole hst (by rw [horch]) (by rw [horch, hq]; rfl)

/-! ### Every step -/

/-- A collecting orchestrator's codec stays in step. -/
theorem step_collectInStep (hinv : s.Inv) (hreq : s.ReqInStep) (hcollect : s.CollectInStep) (hst : step s = .next t) :
    t.CollectInStep := by
  have hrs := rslenOk_of_inv hinv
  obtain ⟨-, hp, ⟨-, -, -, -, -, -, -, -, -, -, -, hidx, -⟩, -⟩ := hinv
  rw [collectInStep_iff] at hcollect ⊢
  intro ho'
  obtain ⟨-, rfl⟩ | ⟨hrst, -⟩ := Laws.step_next_cases hst
  · cases ho'
  cases step_orchStep hrst hst
  case reqLast ho hq hi e => exact inTime_whole_of_reqLast hp hrs (hidx ho) hrst ho hreq hst hq hi e
  case byteMore ho ht hq hi e =>
    obtain ⟨hin, hwhole⟩ := hcollect ho
    have hpos := List.length_pos_iff.mpr hq
    refine collect_quiet hp hrst ho ht (quiet_of_byte hq hin) hwhole hst (by rw [e]) ?_
    rw [e, List.length_tail]
    change s.orch.idx + 1 + (s.rxq.length - 1) = _
    omega
  case wait ho ht hq e =>
    obtain ⟨hin, hwhole⟩ := hcollect ho
    exact inTime_whole_of_wait hp hrst ho ht hq hin hwhole hst e
  all_goals
    rename_i e
    simp_all

/-- Outside the exchange the codec stays at rest; it is at rest when the collection ends, by a timeout or by the last
byte. -/
theorem step_atRest (hsafe : s.RestartSafe) (hinv : s.Inv) (hrest : s.AtRest) (hcollect : s.CollectInStep)
    (hst : step s = .next t) : t.AtRest := by
  obtain ⟨-, hp, ⟨-, -, -, hq3, -⟩, -⟩ := hinv
  rw [collectInStep_iff] at hcollect
  obtain ⟨-, rfl⟩ | ⟨hrst, -⟩ := Laws.step_next_cases hst
  · exact fun _ _ _ => ⟨by simp [State.resetOf, Codec.reset, Codec.sending], rfl⟩
  intro hctrl' hreq' hcollect'
  have hstep := step_orchStep hrst hst
  obtain ⟨hr, hpush, hquiet⟩ : s.orch.os ≠ .oReset ∧ NothingToPush s ∧ ¬ s.codec.sending ∧ s.txq = [] := by
    cases hstep
    case timeout ho ht e =>
      exact ⟨by simp [ho], by simp [NothingToPush, ho], quiet_of_timeout hsafe hp hq3 ht (hcollect ho).1⟩
    case byteLast ho ht hq hi e =>
      exact ⟨by simp [ho], by simp [NothingToPush, ho], quiet_of_byte hq (hcollect ho).1⟩
    case idle ho e | start ho hlegal e | space ho e | spaceLast ho e | done ho e =>
      exact ⟨by simp [ho], by simp [NothingToPush, ho], hrest (by simp [ho]) (by simp [ho]) (by simp [ho])⟩
    all_goals
      rename_i e
      simp_all
  exact step_stays_quiet hp hrst hr hpush hquiet hst

end

/-- Settles O3: each of the four clauses is kept by every step. -/
theorem codecStaysInStep : Obligations.CodecStaysInStep := by
  rintro s t hsafe hinv ⟨hrest, hctrl, hreq, hcollect⟩ hst
  have hrs := rslenOk_of_inv hinv
  have ⟨_, hp, _⟩ := hinv
  exact ⟨step_atRest hsafe hinv hrest hcollect hst, step_ctrlInStep hctrl hst,
    step_reqInStep hp hrs hctrl hreq hst, step_collectInStep hinv hreq hcollect hst⟩

end Sys2Proof.Proofs
end

section
/-! The session layer's operations (`42_session.md` sections 1 to 3): the four host commands ready and busy, the command on
the port, and one equation for each case of each arm of `ss`. -/

namespace Sys2Proof.Proofs

open Sys2Proof.Machine

/-! ### The four commands (R191, R193 to R196) -/

theorem exec_identify_ready {s : State} (h : s.session.ss = .sIdle) : exec .identify s = .next (acceptIdentify s) :=
  congrArg Host.Outcome.next (Laws.whenReady_of_ready _ s h)

theorem exec_poll_ready {s : State} (h : s.session.ss = .sIdle) : exec .poll s = .next (acceptPoll s) :=
  congrArg Host.Outcome.next (Laws.whenReady_of_ready _ s h)

theorem exec_setRumble_ready {s : State} (h : s.session.ss = .sIdle) (b : Bool) :
    exec (.setRumble b) s = .next (writeRumble b s) :=
  congrArg Host.Outcome.next (Laws.whenReady_of_ready _ s h)

theorem exec_pollr_ready {s : State} (h : s.session.ss = .sIdle) (b : Bool) :
    exec (.pollr b) s = .next (acceptPollr b s) :=
  congrArg Host.Outcome.next (Laws.whenReady_of_ready _ s h)

/-- The poll frame in its buffer: the flag is a byte of its own (`30_encoding.md` R99). -/
theorem padRequest_pollFrame (c : Config) (r : Bool) : padRequest c (pollFrame r) =
    0x40#8 :: 0x03#8 :: (if r then 0x01#8 else 0x00#8) :: List.replicate (c.reqMax - 3) 0#8 := by
  cases r <;> rfl

/-- Settles O10: IDENTIFY launches the one-byte frame. -/
theorem identifyAtAcceptance : Obligations.IdentifyAtAcceptance := fun _ h => exec_identify_ready h

/-- Settles O11: POLL launches the poll frame with the flag it finds. -/
theorem pollAtAcceptance : Obligations.PollAtAcceptance := by
  intro s h
  rw [exec_poll_ready h, ← padRequest_pollFrame]
  rfl

/-- Settles O12: SET_RUMBLE writes the flag; busy, it is ignored. -/
theorem setRumbleAtAcceptance : Obligations.SetRumbleAtAcceptance := fun s b =>
  ⟨fun h => ⟨_, exec_setRumble_ready h b, rfl, (Laws.cmdReady_iff _).mpr h, by simp [xferStart, writeRumble, h], rfl⟩,
    fun h => congrArg Host.Outcome.next (Laws.whenReady_of_busy _ s h)⟩

/-- Settles O13: POLLR launches the poll frame with the flag it writes, and POLL finds that flag after SET_RUMBLE. -/
theorem pollrIsSetRumbleThenPoll : Obligations.PollrIsSetRumbleThenPoll := by
  intro s b h
  have hready : (writeRumble b s).session.ss = .sIdle := h
  refine ⟨?_, writeRumble b s, exec_setRumble_ready h b, ?_⟩
  · rw [exec_pollr_ready h, ← padRequest_pollFrame]
    rfl
  · rw [exec_pollr_ready h, exec_poll_ready hready]
    rfl

/-- Settles O14: a command is run through `whenReady`. -/
theorem commandsIgnoredWhenBusy : Obligations.CommandsIgnoredWhenBusy := by
  intro s b h
  have hbusy (f : State → State) : Host.Outcome.next (whenReady f s) = (.next s : Host.Outcome State Fault Refusal) :=
    congrArg Host.Outcome.next (Laws.whenReady_of_busy f s h)
  exact ⟨hbusy _, hbusy _, hbusy _, hbusy _⟩

/-! ### `S_IDLE` (R191, R197) and the word on the command port (`30_encoding.md` R105) -/

theorem exec_armSIdle_valid {s : State} (h : (input s).cmdValid = true) :
    exec .armSIdle s = .next (acceptCommand (input s).cmdOp (input s).cmdArg s) :=
  congrArg Host.Outcome.next (if_pos h)

theorem exec_armSIdle_none {s : State} (h : (input s).cmdValid = false) : exec .armSIdle s = .next s :=
  congrArg Host.Outcome.next (if_neg (by simp [h]))

theorem extractLsb'_hostCmdWord (op : BitVec 2) (arg : Bool) : (hostCmdWord op arg).extractLsb' 1 2 = op := by
  revert op arg
  decide

theorem getLsbD_zero_hostCmdWord (op : BitVec 2) (arg : Bool) : (hostCmdWord op arg).getLsbD 0 = arg := by
  revert op arg
  decide

/-- The command the port's word decodes to is the one the accepting edge performs. -/
theorem exec_decodeHostCmd (op : BitVec 2) (arg : Bool) (s : State) :
    exec (decodeHostCmd (hostCmdWord op arg)) s = .next (acceptCommand op arg s) := by
  rw [decodeHostCmd, extractLsb'_hostCmdWord, getLsbD_zero_hostCmdWord, acceptCommand]
  cases hostOp op <;> rfl

/-- Settles O41: the arm performs the command on the port, which writes the session layer's registers only. -/
theorem sIdleAcceptsOrStays : Obligations.SIdleAcceptsOrStays := by
  refine fun s _ => ⟨fun hv => ?_, exec_armSIdle_none⟩
  rw [exec_armSIdle_valid hv]
  refine ⟨⟨_, congrArg Host.Outcome.next (Laws.acceptCommand_frame _ _ s)⟩, ?_, ?_, ?_, ?_⟩ <;>
    · intro hop
      rw [hop]
      rfl

/-- With no transfer started the orchestrator's arm answers a next state, whatever operands stand ready. -/
theorem orch_arm_next_of_no_start {s : State} (h : s.session.ss ≠ .sStart) : ∃ b, exec (orchInstr s) s = .next b := by
  unfold orchInstr
  cases s.orch.os with
  | oIdle => exact ⟨s, exec_armOIdle_none h⟩
  | oReset => exact ⟨_, rfl⟩
  | oCtrl => simp only [exec, execArmOCtrl]; split <;> exact ⟨_, rfl⟩
  | oReq => simp only [exec, execArmOReq]; split_ifs <;> exact ⟨_, rfl⟩
  | oCollect =>
    simp only [exec, execArmOCollect]
    split
    · exact ⟨_, rfl⟩
    · split <;> exact ⟨_, rfl⟩
  | oSpace => simp only [exec, execArmOSpace]; split <;> exact ⟨_, rfl⟩
  | oDone => exact ⟨_, rfl⟩

/-- Settles O45: in `S_IDLE` no arm refuses, and the session layer's arm is the command of the port's word. -/
theorem stepRunsPresentedCommand : Obligations.StepRunsPresentedCommand := by
  intro s i hrst hv hs hi
  obtain rfl : decodeHostCmd (hostCmdWord (input s).cmdOp (input s).cmdArg) = i := Except.ok.inj hi
  obtain ⟨a, ha⟩ := Laws.codec_arm_next s
  obtain ⟨b, hb⟩ := orch_arm_next_of_no_start (s := s) (by simp [hs])
  have hc : exec (sessionInstr s) s = .next (acceptCommand (input s).cmdOp (input s).cmdArg s) := by
    rw [sessionInstr, hs]
    exact exec_armSIdle_valid hv
  exact ⟨_, _, exec_decodeHostCmd _ _ s, step_of_arms_next hrst ha hb hc, rfl⟩

/-! ### `S_START` (R192) and `S_WAIT` (R198, R199) -/

theorem exec_armSStart (s : State) : exec .armSStart s = .next (s.setSession { s.session with ss := .sWait }) := rfl

/-- Settles O42: the arm's one write, and the definition of `xfer_start`. -/
theorem sStartRaisesXferStart : Obligations.SStartRaisesXferStart := fun s => ⟨exec_armSStart s, Laws.xferStart_iff s⟩

theorem exec_armSWait_waiting {s : State} (ho : s.orch.os ≠ .oDone) : exec .armSWait s = .next s :=
  if_neg fun h => ho ((Laws.xferDone_iff s).mp h)

theorem exec_armSWait_id {s : State} (ho : s.orch.os = .oDone) (hk : s.session.kind = .kId) :
    exec .armSWait s = .next (s.setSession { s.session with idRaw := respId s.orch.resp, ss := .sIdle }) := by
  simp only [exec, execArmSWait, Laws.xferDone_iff, ho, hk, if_true]

theorem exec_armSWait_poll {s : State} (ho : s.orch.os = .oDone) (hk : s.session.kind = .kPoll) :
    exec .armSWait s = .next (s.setSession { s.session with raw := respRaw s.orch.resp, ss := .sIdle }) := by
  simp only [exec, execArmSWait, Laws.xferDone_iff, ho, hk, if_true]

theorem getElem_respId (r : Vector Byte 32) (j : Fin 3) : (respId r)[j] = r[j.val] := by
  fin_cases j <;> rfl

theorem getElem_respRaw (r : Vector Byte 32) (j : Fin 8) : (respRaw r)[j] = r[j.val] := by
  fin_cases j <;> rfl

/-- Settles O43: the stored vector is the front of `resp`. -/
theorem sWaitStoresResultWholesale : Obligations.SWaitStoresResultWholesale := fun s =>
  ⟨fun ho hk => ⟨_, getElem_respId s.orch.resp, exec_armSWait_id ho hk⟩,
    fun ho hk => ⟨_, getElem_respRaw s.orch.resp, exec_armSWait_poll ho hk⟩, exec_armSWait_waiting⟩

end Sys2Proof.Proofs
end

section
/-! The command port (`42_session.md` R191, `20_memory.md` R71): nobody but the session layer reads it, and the session
layer only in `S_IDLE` with `cmd_valid = 1`. -/

namespace Sys2Proof.Proofs

open Sys2Proof.Machine

/-! ### The arms with the command port replaced -/

theorem takeSample_setInputs (b : Bool) (s : State) (l : List Inputs) :
    takeSample b (s.setInputs l) = (takeSample b s).setInputs l := by
  simp only [takeSample, apply_ite (State.setInputs · l)]
  rfl

/-- Of the inputs the codec reads the level of the line only. -/
theorem codec_arm_setInputs_of_lineIn {s : State} {l : List Inputs} (hl : lineIn (s.setInputs l) = lineIn s) :
    exec (codecInstr s) (s.setInputs l) = mapNext (·.setInputs l) (exec (codecInstr s) s) := by
  by_cases hu : LineUnread s
  · exact codec_arm_setInputs hu l
  · cases hr : restart s with
    | true =>
      rw [codecInstr, if_pos hr]
      rfl
    | false =>
      rw [codecInstr_of_not_restart hr]
      cases hc : s.codec.cs with
      | cRxHigh =>
        simp only [codecArm, exec, execArmCRxHigh, hl, mapNext, apply_ite (State.setInputs · l)]
        rfl
      | cRxArm =>
        simp only [codecArm, exec, execArmCRxArm, hl, mapNext, apply_ite (State.setInputs · l)]
        rfl
      | cRxSettle =>
        simp only [codecArm, exec, execArmCRxSettle, hl, takeSample_setInputs, apply_ite (mapNext _)]
        rfl
      | cIdle | cTxWait | cTxBit | cStop | cRxPush => exact absurd (by simp [LineUnread, hc]) hu

/-- Outside `S_IDLE` the session layer reads no input at all. -/
theorem session_arm_setInputs_of_busy {s : State} (h : s.session.ss ≠ .sIdle) (l : List Inputs) :
    exec (sessionInstr s) (s.setInputs l) = mapNext (·.setInputs l) (exec (sessionInstr s) s) := by
  unfold sessionInstr
  cases hs : s.session.ss with
  | sIdle => exact absurd hs h
  | sStart => rfl
  | sWait =>
    simp only [exec, execArmSWait, apply_ite (mapNext _), Laws.setInputs_session]
    cases s.session.kind <;> rfl

/-- With nothing presented `S_IDLE` reads `cmd_valid` only. -/
theorem session_arm_setInputs_of_not_valid {s : State} {l : List Inputs} (hv : (input s).cmdValid = false)
    (hv' : (input (s.setInputs l)).cmdValid = false) :
    exec (sessionInstr s) (s.setInputs l) = mapNext (·.setInputs l) (exec (sessionInstr s) s) := by
  by_cases hs : s.session.ss = .sIdle
  · rw [sessionInstr, hs, exec_armSIdle_none hv, exec_armSIdle_none hv']
    rfl
  · exact session_arm_setInputs_of_busy hs l

/-! ### The edge -/

/-- A step is the same under inputs that differ in the command port only, if the session layer's arm is. -/
theorem step_setInputs_of_session {s : State} {l : List Inputs} (hl : l.tail = s.inputs.tail)
    (hrst : (input (s.setInputs l)).rst = (input s).rst)
    (hlow : (input (s.setInputs l)).periphLow = (input s).periphLow)
    (hsession : exec (sessionInstr s) (s.setInputs l) = mapNext (·.setInputs l) (exec (sessionInstr s) s)) :
    step (s.setInputs l) = step s := by
  cases hr : (input s).rst with
  | false =>
    have hline : lineIn (s.setInputs l) = lineIn s := by
      rw [lineIn, hlow]
      rfl
    rw [step_of_not_rst (hrst.trans hr), step_of_not_rst hr, ← edge_setInputs hl,
      ← codec_arm_setInputs_of_lineIn hline, ← orch_arm_setInputs, ← hsession]
    rfl
  | true =>
    unfold step
    rw [if_pos (hrst.trans hr), if_pos hr, exec_reset, exec_reset]
    simp only [resetEdge, andThen, tick, Laws.setInputs_inputs, hl]
    rfl

/-- Settles O52: busy, or with nothing presented, the session layer's arm does not read the rest of the port. -/
theorem portUnreadWhenBusy : Obligations.PortUnreadWhenBusy := by
  intro s i l v op a hs
  have hi : input s = i := by rw [input, inputAt, hs]; rfl
  have htail : l = s.inputs.tail := by rw [hs]; rfl
  refine ⟨fun hbusy => ?_, fun hv => ?_⟩
  · exact step_setInputs_of_session (l := { i with cmdValid := v, cmdOp := op, cmdArg := a } :: l) htail (hi ▸ rfl)
      (hi ▸ rfl) (session_arm_setInputs_of_busy hbusy _)
  · exact step_setInputs_of_session (l := { i with cmdOp := op, cmdArg := a } :: l) htail (hi ▸ rfl) (hi ▸ rfl)
      (session_arm_setInputs_of_not_valid (hi ▸ hv) hv)

end Sys2Proof.Proofs
end

section
/-! The session layer's registers at an edge, said once (`42_session.md` sections 2 and 3). -/

namespace Sys2Proof.Proofs

open Sys2Proof.Machine

/-- What the session layer's arm can do to its registers on the state `s`: one case for each case of each arm, the three
commands that request a transfer taken together. -/
inductive SessionStep (s : State) (x : Session) : Prop where
  | idle (hs : s.session.ss = .sIdle) (e : x = s.session)
  | rumble (b : Bool) (hs : s.session.ss = .sIdle) (e : x = { s.session with rumble := b })
  | request (hs : s.session.ss = .sIdle) (hss : x.ss = .sStart) (hframe : x.frameOk s.cfg)
  | start (hs : s.session.ss = .sStart) (e : x = { s.session with ss := .sWait })
  | wait (hs : s.session.ss = .sWait) (ho : s.orch.os ≠ .oDone) (e : x = s.session)
  | storeId (hs : s.session.ss = .sWait) (ho : s.orch.os = .oDone)
      (e : x = { s.session with idRaw := respId s.orch.resp, ss := .sIdle })
  | storePoll (hs : s.session.ss = .sWait) (ho : s.orch.os = .oDone)
      (e : x = { s.session with raw := respRaw s.orch.resp, ss := .sIdle })

/-- The request of an accepted IDENTIFY (R193). -/
theorem acceptIdentify_frameOk (s : State) : (acceptIdentify s).session.frameOk s.cfg := .inl ⟨rfl, rfl, rfl, rfl⟩

/-- The request of an accepted POLL (R194). -/
theorem acceptPoll_frameOk (s : State) : (acceptPoll s).session.frameOk s.cfg := by
  have hreq : (acceptPoll s).session.sReq = padRequest s.cfg (pollFrame s.session.rumble) := rfl
  refine .inr ⟨rfl, ?_, rfl, rfl⟩
  cases hr : s.session.rumble <;> simp [hreq, hr]

/-- A command accepted writes `RUMBLE`, or launches a request (R193 to R196). -/
theorem acceptCommand_sessionStep {s : State} (hs : s.session.ss = .sIdle) (op : BitVec 2) (arg : Bool) :
    SessionStep s (acceptCommand op arg s).session := by
  unfold acceptCommand
  cases hostOp op <;> simp only [Laws.whenReady_of_ready _ s hs]
  case identify => exact .request hs rfl (acceptIdentify_frameOk s)
  case poll => exact .request hs rfl (acceptPoll_frameOk s)
  case setRumble => exact .rumble arg hs rfl
  case pollr => exact .request hs rfl (acceptPoll_frameOk (writeRumble arg s))

/-- A step without reset changes the session layer's registers by one of the cases of its arms. -/
theorem step_sessionStep {s t : State} (hrst : (input s).rst = false) (hst : step s = .next t) :
    SessionStep s t.session := by
  obtain ⟨c, hc, ht⟩ := step_session hrst hst
  rw [ht]
  rw [sessionInstr] at hc
  cases hs : s.session.ss <;> rw [hs] at hc
  case sIdle =>
    cases hv : (input s).cmdValid
    · cases (exec_armSIdle_none hv).symm.trans hc
      exact .idle hs rfl
    · cases (exec_armSIdle_valid hv).symm.trans hc
      exact acceptCommand_sessionStep hs _ _
  case sStart =>
    cases hc
    exact .start hs rfl
  case sWait =>
    by_cases ho : s.orch.os = .oDone
    · cases hk : s.session.kind
      · cases (exec_armSWait_id ho hk).symm.trans hc
        exact .storeId hs ho rfl
      · cases (exec_armSWait_poll ho hk).symm.trans hc
        exact .storePoll hs ho rfl
    · cases (exec_armSWait_waiting ho).symm.trans hc
      exact .wait hs ho rfl

end Sys2Proof.Proofs
end

section
/-! Every step keeps `State.Inv`, one conjunct at a time; the range of `ph` stands with the codec's arms. -/

namespace Sys2Proof.Proofs

open Sys2Proof.Machine

variable {s t : State}

/-! ### The queues (`20_memory.md` R62, R64; `30_encoding.md` R97) -/

/-- No bit below 24 is set (`30_encoding.md` R97). -/
def LowBitsZero (w : TxWord) : Prop := w.extractLsb' 0 24 = 0#24

theorem queuesOk_iff (s : State) : s.QueuesOk ↔
    s.txq.length ≤ s.cfg.qdTx ∧ s.rxq.length ≤ s.cfg.qdRx ∧ ∀ w ∈ s.txq, LowBitsZero w := by
  simp [State.QueuesOk, LowBitsZero]

theorem controlWord_lowBitsZero (l : BitVec 5) : LowBitsZero (controlWord l) := by
  revert l
  unfold LowBitsZero
  decide

theorem dataWord_lowBitsZero (b : Byte) : LowBitsZero (dataWord b) := BitVec.extractLsb'_append_eq_right

theorem pushedTx_lowBitsZero {w : TxWord} (h : w ∈ pushedTx s) : LowBitsZero w := by
  unfold pushedTx offeredTx at h
  split at h
  · split at h
    · rw [List.mem_singleton.mp h]
      exact controlWord_lowBitsZero _
    · rw [List.mem_singleton.mp h]
      exact dataWord_lowBitsZero _
    all_goals cases h
  · cases h

/-- A queue that is not over its depth is not over it after a pop, and a push that finds room. -/
theorem length_append_le_depth {α : Type} {q left pushed : List α} {d : Nat} (hleft : left = q ∨ left = q.tail)
    (hq : q.length ≤ d) (hpushed : pushed.length ≤ if q.length < d then 1 else 0) : (left ++ pushed).length ≤ d := by
  have hlen : left.length ≤ q.length := by
    obtain rfl | rfl := hleft
    · exact le_rfl
    · simp
  rw [List.length_append]
  split at hpushed <;> omega

theorem leftTx_eq_or (s : State) : leftTx s = s.txq ∨ leftTx s = s.txq.tail := by
  unfold leftTx
  split
  · exact .inr rfl
  · exact .inl rfl

theorem pushedTx_length_le (s : State) : (pushedTx s).length ≤ if s.txq.length < s.cfg.qdTx then 1 else 0 := by
  rw [pushedTx_length]
  split_ifs <;> simp_all

theorem pushedRx_length_le (s : State) : (pushedRx s).length ≤ if s.rxq.length < s.cfg.qdRx then 1 else 0 := by
  unfold pushedRx
  split_ifs <;> simp_all

theorem step_queuesOk (hrst : (input s).rst = false) (hq : s.QueuesOk) (hp : s.PhaseOk) (hst : step s = .next t) :
    t.QueuesOk := by
  rw [queuesOk_iff] at hq ⊢
  obtain ⟨htx, hrx, hlow⟩ := hq
  rw [step_cfg hst]
  by_cases hr : s.orch.os = .oReset
  · obtain ⟨htx', hrx'⟩ := step_queues_of_restart hrst hst hr
    simp [htx', hrx']
  · obtain ⟨htx', hrx'⟩ := step_queues hrst hp hst hr
    rw [htx', hrx']
    refine ⟨length_append_le_depth (leftTx_eq_or s) htx (pushedTx_length_le s),
      length_append_le_depth (leftRx_eq_or s) hrx (pushedRx_length_le s), fun w hw => ?_⟩
    obtain hw | hw := List.mem_append.mp hw
    · obtain e | e := leftTx_eq_or s <;> rw [e] at hw
      · exact hlow w hw
      · exact hlow w (List.mem_of_mem_tail hw)
    · exact pushedTx_lowBitsZero hw

/-! ### The start of a transfer (`41_orchestrator.md` R162) -/

/-- The orchestrator's registers at the start of the transfer the session layer holds. -/
def latched (x : Session) : Orch :=
  { os := .oReset, rq := x.sReq, rqlen := x.sRqlen, rslen := x.sRslen, idx := 0, tmr := 0,
    resp := Vector.replicate 32 0#8 }

theorem step_orch_started (hrst : (input s).rst = false) (ho : s.orch.os = .oIdle) (hss : s.session.ss = .sStart)
    (hst : step s = .next t) : t.orch = latched s.session := by
  obtain ⟨b, hb, ht⟩ := step_orch hrst hst
  rw [orchInstr, ho, exec_armOIdle_start hss] at hb
  by_cases hlegal : operandsLegal s.cfg s.session.sRqlen s.session.sRslen = true
  · cases (startTransfer_of_legal hlegal _).symm.trans hb
    exact ht
  · cases (startTransfer_of_not_legal hlegal _).symm.trans hb

theorem step_orch_not_started (hrst : (input s).rst = false) (ho : s.orch.os = .oIdle) (hss : s.session.ss ≠ .sStart)
    (hst : step s = .next t) : t.orch = s.orch := by
  obtain ⟨b, hb, ht⟩ := step_orch hrst hst
  rw [orchInstr, ho, exec_armOIdle_none hss] at hb
  cases hb
  exact ht

/-! ### Session layer and orchestrator (`42_session.md` R200, `30_encoding.md` R100) -/

/-- A transfer that runs ends in `O_DONE` and nowhere else (`41_orchestrator.md` R174). -/
theorem OrchStep.oIdle_iff {o : Orch} (h : OrchStep s o) (ho : s.orch.os ≠ .oIdle) :
    o.os = .oIdle ↔ s.orch.os = .oDone := by
  cases h <;> simp_all

/-- While a transfer runs its operands stay (`10_state.md` R41, R42). -/
theorem OrchStep.operands_kept {o : Orch} (h : OrchStep s o) (ho : s.orch.os ≠ .oIdle) :
    o.rq = s.orch.rq ∧ o.rqlen = s.orch.rqlen ∧ o.rslen = s.orch.rslen := by
  cases h
  case start hidle hlegal e => exact absurd hidle ho
  all_goals
    rename_i e
    rw [e]
    exact ⟨rfl, rfl, rfl⟩

/-- How a transfer of the session layer proceeds at an edge: none is launched, the one launched starts, it goes on, or
it ends. -/
inductive TransferStep (s t : State) : Prop where
  | none (hs : s.session.ss = .sIdle) (ho : t.orch.os = .oIdle) (hx : t.session.ss ≠ .sWait)
      (hframe : t.session.ss = .sIdle ∨ t.session.frameOk s.cfg)
  | starts (hs : s.session.ss = .sStart) (ho : t.orch = latched s.session)
      (hx : t.session = { s.session with ss := .sWait })
  | goesOn (hs : s.session.ss = .sWait) (hbusy : s.orch.os ≠ .oIdle) (ho : t.orch.os ≠ .oIdle)
      (hx : t.session = s.session)
  | ends (hs : s.session.ss = .sWait) (ho : t.orch.os = .oIdle) (hx : t.session.ss = .sIdle)

theorem step_transferStep (hrst : (input s).rst = false) (hc : s.CoupledOk) (hst : step s = .next t) :
    TransferStep s t := by
  have horch := step_orchStep hrst hst
  have hready (h : s.session.ss ≠ .sWait) : s.orch.os = .oIdle := not_not.mp fun ho => h (hc.mpr ho)
  have hidle (h : s.session.ss = .sIdle) : t.orch.os = .oIdle := by
    have ho := hready (by simp [h])
    rw [step_orch_not_started hrst ho (by simp [h]) hst, ho]
  cases step_sessionStep hrst hst
  case idle hs e => exact .none hs (hidle hs) (by simp [e, hs]) (.inl (by rw [e, hs]))
  case rumble b hs e => exact .none hs (hidle hs) (by simp [e, hs]) (.inl (by rw [e]; exact hs))
  case request hs hss hframe => exact .none hs (hidle hs) (by simp [hss]) (.inr hframe)
  case start hs e => exact .starts hs (step_orch_started hrst (hready (by simp [hs])) hs hst) e
  case wait hs ho e =>
    have hbusy := hc.mp hs
    exact .goesOn hs hbusy (fun h => ho ((horch.oIdle_iff hbusy).mp h)) e
  case storeId hs ho e | storePoll hs ho e =>
    exact .ends hs ((horch.oIdle_iff (hc.mp hs)).mpr ho) (by rw [e])

theorem TransferStep.coupledOk (h : TransferStep s t) : t.CoupledOk := by
  cases h
  case none hs ho hx hframe => exact iff_of_false hx (by simp [ho])
  case starts hs ho hx => exact iff_of_true (by rw [hx]) (by simp [ho, latched])
  case goesOn hs hbusy ho hx => exact iff_of_true (hx ▸ hs) ho
  case ends hs ho hx => exact iff_of_false (by simp [hx]) (by simp [ho])

theorem TransferStep.framesOk (h : TransferStep s t) (hrst : (input s).rst = false) (hst : step s = .next t)
    (hf : s.FramesOk) : t.FramesOk := by
  obtain ⟨hframe, hsame⟩ := hf
  rw [State.FramesOk, step_cfg hst]
  cases h
  case none hs ho hx hnew => exact ⟨fun hne => hnew.resolve_left hne, fun hne => absurd ho hne⟩
  case starts hs ho hx =>
    rw [hx, ho]
    exact ⟨fun _ => hframe (by simp [hs]), fun _ => ⟨rfl, rfl, rfl⟩⟩
  case goesOn hs hbusy ho hx =>
    obtain ⟨hrq, hq, hr⟩ := (step_orchStep hrst hst).operands_kept hbusy
    rw [hx, hrq, hq, hr]
    exact ⟨hframe, fun _ => hsame hbusy⟩
  case ends hs ho hx => exact ⟨fun hne => absurd hx hne, fun hne => absurd ho hne⟩

/-! ### The operands (`10_state.md` R41, R42, R49) -/

/-- A request of one to three bytes in its buffer, and an expected length in its range. -/
structure OperandsFit (c : Config) (rq : List Byte) (rqlen rslen : Nat) : Prop where
  length_eq : rq.length = c.reqMax
  rqlen_pos : 1 ≤ rqlen
  rqlen_le : rqlen ≤ 3
  rslen_pos : 1 ≤ rslen
  rslen_le : rslen ≤ 32

/-- `idx` is in the range of what it counts (`10_state.md` R43). -/
structure IdxOk (o : Orch) : Prop where
  le : o.idx ≤ 31
  lt_rqlen : o.os = .oReq → o.idx < o.rqlen
  lt_rslen : o.os = .oCollect → o.idx < o.rslen

theorem operandsOk_iff (s : State) : s.OperandsOk ↔
    OperandsFit s.cfg s.orch.rq s.orch.rqlen s.orch.rslen ∧
    OperandsFit s.cfg s.session.sReq s.session.sRqlen s.session.sRslen ∧ IdxOk s.orch := by
  constructor
  · rintro ⟨ho, hx, hq, hq3, hr, hr32, hxq, hxq3, hxr, hxr32, hidx, hreq, hcollect⟩
    exact ⟨⟨ho, hq, hq3, hr, hr32⟩, ⟨hx, hxq, hxq3, hxr, hxr32⟩, ⟨hidx, hreq, hcollect⟩⟩
  · rintro ⟨⟨ho, hq, hq3, hr, hr32⟩, ⟨hx, hxq, hxq3, hxr, hxr32⟩, ⟨hidx, hreq, hcollect⟩⟩
    exact ⟨ho, hx, hq, hq3, hr, hr32, hxq, hxq3, hxr, hxr32, hidx, hreq, hcollect⟩

/-- The two frames fit every buffer (`00_scope.md` R8). -/
theorem operandsFit_of_frameOk {c : Config} {x : Session} (h : x.frameOk c) :
    OperandsFit c x.sReq x.sRqlen x.sRslen := by
  obtain ⟨-, -, -, hmax, -⟩ := c.legal
  have hpoll (r : Bool) : (padRequest c (pollFrame r)).length = c.reqMax := Laws.padRequest_length c _ hmax
  obtain ⟨-, hreq, hq, hr⟩ | ⟨-, hreq | hreq, hq, hr⟩ := h <;> rw [hreq, hq, hr]
  · exact ⟨Laws.padRequest_length c _ (Nat.one_le_of_lt hmax), by decide, by decide, by decide, by decide⟩
  · exact ⟨hpoll false, by decide, by decide, by decide, by decide⟩
  · exact ⟨hpoll true, by decide, by decide, by decide, by decide⟩

/-- The session layer's operands are written by an accepted request only. -/
theorem SessionStep.operandsFit {x : Session} (h : SessionStep s x)
    (hx : OperandsFit s.cfg s.session.sReq s.session.sRqlen s.session.sRslen) :
    OperandsFit s.cfg x.sReq x.sRqlen x.sRslen := by
  cases h
  case request hs hss hframe => exact operandsFit_of_frameOk hframe
  all_goals
    rename_i e
    rw [e]
    exact hx

/-- The orchestrator's operands are written by the start of a transfer only. -/
theorem OrchStep.operandsFit {o : Orch} (h : OrchStep s o) (ho : OperandsFit s.cfg s.orch.rq s.orch.rqlen s.orch.rslen)
    (hx : OperandsFit s.cfg s.session.sReq s.session.sRqlen s.session.sRslen) :
    OperandsFit s.cfg o.rq o.rqlen o.rslen := by
  cases h
  case start hidle hlegal e =>
    rw [e]
    exact hx
  all_goals
    rename_i e
    rw [e]
    exact ho

/-- `idx` starts from 0 and stops counting at the last byte (R166, R168). -/
theorem OrchStep.idxOk {o : Orch} (h : OrchStep s o) (ho : OperandsFit s.cfg s.orch.rq s.orch.rqlen s.orch.rslen)
    (hidx : IdxOk s.orch) : IdxOk o := by
  obtain ⟨-, hq, hq3, hr, hr32⟩ := ho
  obtain ⟨hle, hreq, hcollect⟩ := hidx
  cases h
  case idle hs e | ctrlFull hs hfull e | reqFull hs hfull e | wait hs ht hempty e =>
    rw [e]
    exact ⟨hle, hreq, hcollect⟩
  case ctrl hs hroom e =>
    rw [e]
    exact ⟨Nat.zero_le _, fun _ => hq, by simp⟩
  case reqLast hs hroom hi e =>
    rw [e]
    exact ⟨Nat.zero_le _, by simp, fun _ => hr⟩
  case reqMore hs hroom hi e =>
    have hlt := hreq hs
    have hnext : s.orch.idx + 1 < s.orch.rqlen := by omega
    rw [e]
    exact ⟨by simp only; omega, fun _ => hnext, by simp [hs]⟩
  case byteMore b hs ht hbyte hi e =>
    have hlt := hcollect hs
    have hnext : s.orch.idx + 1 < s.orch.rslen := by omega
    rw [e]
    exact ⟨by simp only; omega, by simp [hs], fun _ => hnext⟩
  case start hs hlegal e =>
    rw [e]
    exact ⟨Nat.zero_le _, by simp, by simp⟩
  case space hs e =>
    rw [e]
    exact ⟨hle, by simp [hs], by simp [hs]⟩
  all_goals
    rename_i e
    rw [e]
    exact ⟨hle, by simp, by simp⟩

theorem step_operandsOk (hrst : (input s).rst = false) (h : s.OperandsOk) (hst : step s = .next t) : t.OperandsOk := by
  rw [operandsOk_iff] at h ⊢
  obtain ⟨ho, hx, hidx⟩ := h
  have horch := step_orchStep hrst hst
  rw [step_cfg hst]
  exact ⟨horch.operandsFit ho hx, (step_sessionStep hrst hst).operandsFit hx, horch.idxOk ho hidx⟩

/-! ### The timer (`10_state.md` R43, `60_exceptions.md` R251) -/

/-- How many values `tmr` has in an orchestrator state. -/
def timerEnd (c : Config) (o : Orch) : Nat :=
  match o.os with
  | .oCollect => timeoutCycles c + 1
  | .oSpace => spaceCycles c o.rqlen o.rslen
  | .oIdle | .oReset | .oCtrl | .oReq | .oDone => 1

theorem timerOk_iff (s : State) : s.TimerOk ↔ s.orch.tmr < timerEnd s.cfg s.orch := by
  cases ho : s.orch.os <;> simp [State.TimerOk, timerEnd, ho]

theorem timerEnd_pos (c : Config) (o : Orch) : 0 < timerEnd c o := by
  rw [timerEnd]
  cases o.os with
  | oCollect => exact Nat.succ_pos _
  | oSpace => exact spaceCycles_pos c _ _
  | oIdle | oReset | oCtrl | oReq | oDone => exact Nat.one_pos

/-- The spacing counts up to its last cycle (R173). -/
theorem step_orch_oSpace (hrst : (input s).rst = false) (ho : s.orch.os = .oSpace) (hst : step s = .next t) :
    t.orch = { s.orch with tmr := 0, os := .oDone } ∨
    (s.orch.tmr ≠ spaceCycles s.cfg s.orch.rqlen s.orch.rslen - 1 ∧ t.orch = { s.orch with tmr := s.orch.tmr + 1 }) := by
  obtain ⟨b, hb, ht⟩ := step_orch hrst hst
  rw [orchInstr, ho] at hb
  by_cases hlast : s.orch.tmr = spaceCycles s.cfg s.orch.rqlen s.orch.rslen - 1
  · cases (exec_armOSpace_last hlast).symm.trans hb
    exact .inl ht
  · cases (exec_armOSpace_more hlast).symm.trans hb
    exact .inr ⟨hlast, ht⟩

theorem step_timerOk (hrst : (input s).rst = false) (h : s.TimerOk) (hst : step s = .next t) : t.TimerOk := by
  rw [timerOk_iff] at h ⊢
  have hpos := timerEnd_pos s.cfg
  rw [step_cfg hst]
  cases step_orchStep hrst hst
  case idle ho e | ctrlFull ho hq e | reqFull ho hq e => rwa [e]
  case reset ho e | ctrl ho hq e | reqMore ho hq hi e | done ho e =>
    rw [timerEnd, ho] at h
    rw [e]
    simpa [timerEnd, ho] using h
  case wait ho ht hq e =>
    rw [timerEnd, ho] at h
    rw [e, timerEnd, ho]
    simp only at h ⊢
    omega
  case space ho _ =>
    rw [timerEnd, ho] at h
    obtain e | ⟨hmore, e⟩ := step_orch_oSpace hrst ho hst
    · rw [e]
      exact hpos _
    · rw [e, timerEnd, ho]
      simp only at h ⊢
      omega
  all_goals
    rename_i e
    rw [e]
    exact hpos _

/-! ### The response bytes (`10_state.md` R44) -/

/-- From index `n` on the response bytes are zero. -/
def ZeroFrom (n : Nat) (r : Vector Byte 32) : Prop := ∀ j : Fin 32, n ≤ j.val → r[j] = 0#8

theorem zeroFrom_replicate (n : Nat) : ZeroFrom n (Vector.replicate 32 0#8) := fun j _ => by simp

theorem ZeroFrom.mono {n m : Nat} {r : Vector Byte 32} (h : ZeroFrom n r) (hnm : n ≤ m) : ZeroFrom m r :=
  fun j hj => h j (hnm.trans hj)

/-- A byte stored at the bound. -/
theorem ZeroFrom.set {n : Nat} {r : Vector Byte 32} (h : ZeroFrom n r) (b : Byte) :
    ZeroFrom (n + 1) (r.setIfInBounds n b) := by
  intro j hj
  have hne : n ≠ j.val := by omega
  simpa [hne] using h j (by omega)

theorem step_respOk (hrst : (input s).rst = false) (h : s.RespOk) (ho : s.OperandsOk) (hst : step s = .next t) :
    t.RespOk := by
  obtain ⟨-, -, hidx⟩ := (operandsOk_iff s).mp ho
  change ZeroFrom s.collectedBound s.orch.resp at h
  change ZeroFrom t.collectedBound t.orch.resp
  unfold State.collectedBound at h ⊢
  cases step_orchStep hrst hst
  case start hs hlegal e =>
    rw [e]
    exact zeroFrom_replicate _
  case timeout hs ht e =>
    rw [hs] at h
    rw [e]
    exact h.mono (hidx.lt_rslen hs).le
  case byteLast b hs ht hq hi e =>
    rw [hs] at h
    rw [e]
    exact (h.set b).mono (hidx.lt_rslen hs)
  case byteMore b hs ht hq hi e =>
    rw [hs] at h
    rw [e]
    simpa only [hs] using h.set b
  case idle hs e | ctrlFull hs hq e | reqFull hs hq e => rwa [e]
  case reset hs e | ctrl hs hq e | reqLast hs hq hi e | spaceLast hs e | done hs e =>
    rw [hs] at h
    rw [e]
    exact h
  case reqMore hs hq hi e | wait hs ht hq e | space hs e =>
    rw [hs] at h
    rw [e]
    simpa only [hs] using h

/-! ### The invariant -/

/-- The reset state of every configuration meets the invariant (`10_state.md` R56). -/
theorem resetOf_inv (c : Config) : (State.resetOf c).Inv := by
  have hfit : OperandsFit c (List.replicate c.reqMax 0#8) 1 1 :=
    ⟨List.length_replicate, by decide, by decide, by decide, by decide⟩
  refine ⟨(queuesOk_iff _).mpr ⟨Nat.zero_le _, Nat.zero_le _, by simp [State.resetOf]⟩, (phaseOk_iff _).mpr Nat.one_pos,
    (operandsOk_iff _).mpr ⟨hfit, hfit, ⟨Nat.zero_le _, nofun, nofun⟩⟩, (timerOk_iff _).mpr Nat.one_pos,
    zeroFrom_replicate 1, iff_of_false nofun fun h => h rfl, fun h => absurd rfl h, fun h => absurd rfl h⟩

/-- Settles O2: the reset edge leads to a reset state, and every other edge keeps each conjunct. -/
theorem stepKeepsInvariant : Obligations.StepKeepsInvariant := by
  rintro s t ⟨hqueues, hphase, hoperands, htimer, hresp, hcoupled, hframes⟩ hst
  obtain ⟨-, rfl⟩ | ⟨hrst, -⟩ := Laws.step_next_cases hst
  · exact resetOf_inv s.cfg
  · have htransfer := step_transferStep hrst hcoupled hst
    exact ⟨step_queuesOk hrst hqueues hphase hst, step_phaseOk hphase hst, step_operandsOk hrst hoperands hst,
      step_timerOk hrst htimer hst, step_respOk hrst hresp hoperands hst, htransfer.coupledOk,
      htransfer.framesOk hrst hst hframes⟩

end Sys2Proof.Proofs
end

section
/-! The state decoder (`43_decoder.md`): what each of its outputs reads, which bits it does not read, and the two
operations that show it. -/

namespace Sys2Proof.Proofs

open Sys2Proof.Machine

/-! ### The hat (R218) -/

/-- R218's table in the codes of `30_encoding.md` R104: one entry for each D-pad nibble. -/
def hatTable : List Nat := [0, 7, 3, 0, 5, 6, 4, 0, 1, 8, 2, 0, 0, 0, 0, 0]

/-- Row by row. -/
theorem hatCode_hatOf : ∀ n : BitVec 4, (hatCode (hatOf n)).toNat = hatTable.getD n.toNat 0 := by decide

theorem hatCode_le (h : Hat) : (hatCode h).toNat ≤ 8 := by cases h <;> decide

theorem toNat_lowNibble (b : Byte) : (b.extractLsb' 0 4).toNat = b.toNat % 16 := by
  rw [BitVec.extractLsb'_toNat, Nat.shiftRight_zero]

/-- Settles O18: the hat is decoded from the low nibble, and the table has one row for each nibble. -/
theorem hatFollowsTheTable : Obligations.HatFollowsTheTable := by
  intro raw
  refine ⟨?_, hatCode_le _⟩
  rw [← toNat_lowNibble]
  exact hatCode_hatOf _

/-! ### The bits that are read (R213, R223) -/

/-- Bits `n - 1` to 0 of the two bytes agree. -/
def LowBitsAgree (n : Nat) (x y : Byte) : Prop := ∀ i < n, x.getLsbD i = y.getLsbD i

theorem lowBitsAgree_zero (x y : Byte) : LowBitsAgree 0 x y := fun _ hi => absurd hi (Nat.not_lt_zero _)

theorem lowBitsAgree_succ (n : Nat) (x y : Byte) :
    LowBitsAgree (n + 1) x y ↔ LowBitsAgree n x y ∧ x.getLsbD n = y.getLsbD n :=
  Nat.forall_lt_succ_right

theorem LowBitsAgree.mono {m n : Nat} {x y : Byte} (h : LowBitsAgree n x y) (hmn : m ≤ n) : LowBitsAgree m x y :=
  fun i hi => h i (hi.trans_le hmn)

theorem LowBitsAgree.extractLsb'_eq {n : Nat} {x y : Byte} (h : LowBitsAgree n x y) :
    x.extractLsb' 0 n = y.extractLsb' 0 n := by
  refine BitVec.eq_of_getLsbD_eq fun i hi => ?_
  simpa [hi] using h i hi

/-- A mask of `n` ones keeps the low `n` bits. -/
theorem and_lowMask_eq_iff (n : Nat) (x y : Byte) :
    x &&& (BitVec.allOnes n).setWidth 8 = y &&& (BitVec.allOnes n).setWidth 8 ↔ LowBitsAgree n x y := by
  have hbit (z : Byte) (i : Nat) :
      (z &&& (BitVec.allOnes n).setWidth 8).getLsbD i = (z.getLsbD i && decide (i < n)) := by
    obtain hi | hi := Nat.lt_or_ge i 8
    · simp [hi]
    · simp [BitVec.getLsbD_of_ge z i hi]
  constructor
  · intro h i hi
    simpa [hbit, hi] using congrArg (·.getLsbD i) h
  · intro h
    refine BitVec.eq_of_getLsbD_eq fun i _ => ?_
    rw [hbit, hbit]
    by_cases hi : i < n
    · rw [h i hi]
    · simp [hi]

/-- Byte 0 gives five booleans, byte 1 seven, each one bit; the hat has no bit of its own, as it is decoded from the
D-pad's four. -/
theorem padOf_eq_iff (r r' : Vector Byte 8) : padOf r = padOf r' ↔
    LowBitsAgree 5 r[0] r'[0] ∧ LowBitsAgree 7 r[1] r'[1] ∧ r[2] = r'[2] ∧ r[3] = r'[3] ∧ r[4] = r'[4] ∧
      r[5] = r'[5] ∧ r[6] = r'[6] ∧ r[7] = r'[7] := by
  rw [padOf, padOf, ControllerState.mk.injEq]
  constructor
  · rintro ⟨hA, hB, hX, hY, hStart, hZ, hR, hL, hLeft, hRight, hDown, hUp, -, hanalog⟩
    simp only [lowBitsAgree_succ, lowBitsAgree_zero, true_and]
    exact ⟨⟨⟨⟨⟨hA, hB⟩, hX⟩, hY⟩, hStart⟩, ⟨⟨⟨⟨⟨⟨hLeft, hRight⟩, hDown⟩, hUp⟩, hZ⟩, hR⟩, hL⟩, hanalog⟩
  · rintro ⟨h0, h1, hanalog⟩
    have hbit0 (i : Fin 5) : r[0].getLsbD i = r'[0].getLsbD i := h0 i i.isLt
    have hbit1 (i : Fin 7) : r[1].getLsbD i = r'[1].getLsbD i := h1 i i.isLt
    have hnibble : r[1].extractLsb' 0 4 = r'[1].extractLsb' 0 4 := (h1.mono (by decide)).extractLsb'_eq
    exact ⟨hbit0 0, hbit0 1, hbit0 2, hbit0 3, hbit0 4, hbit1 4, hbit1 5, hbit1 6, hbit1 0, hbit1 1, hbit1 2, hbit1 3,
      congrArg hatOf hnibble, hanalog⟩

/-- Settles O19: the two masks keep what is read of bytes 0 and 1. -/
theorem decoderLosesExactlyFourBits : Obligations.DecoderLosesExactlyFourBits := by
  intro r r'
  rw [padOf_eq_iff, ← and_lowMask_eq_iff 5, ← and_lowMask_eq_iff 7]
  rfl

/-! ### CURRENT_STATE and DECODE (R201, R210) -/

theorem exec_currentState (s : State) : exec .currentState s = .next (showPad s.session.raw s) := rfl

theorem exec_decodeRaw (w : BitVec 64) (s : State) : exec (.decodeRaw w) s = .next (showPad (rawBytes w) s) := rfl

/-- Settles O16: the decoder's outputs for `RAW`, written out. -/
theorem currentStateShowsDecode : Obligations.CurrentStateShowsDecode := exec_currentState

/-- A bit of the byte that starts at bit `p`. -/
theorem getLsbD_byteAt (w : BitVec 64) (p : Nat) {i : Nat} (hi : i < 8) :
    (w.extractLsb' p 8).getLsbD i = w.getLsbD (p + i) := by
  rw [BitVec.getLsbD_extractLsb', decide_eq_true hi, Bool.true_and]

/-- The low nibble of the byte that starts at bit `p`. -/
theorem lowNibble_byteAt (w : BitVec 64) (p : Nat) : (w.extractLsb' p 8).extractLsb' 0 4 = w.extractLsb' p 4 := by
  refine BitVec.eq_of_getLsbD_eq fun i hi => ?_
  rw [BitVec.getLsbD_extractLsb', Nat.zero_add, getLsbD_byteAt w p (by omega), BitVec.getLsbD_extractLsb']

/-- The bytes are stored from the top, so bit `i` of byte 0 is bit `56 + i` of the value and bit `i` of byte 1 is bit
`48 + i` (`30_encoding.md` R101). -/
theorem padOf_rawBytes (w : BitVec 64) : padOf (rawBytes w) =
    { btnA := w.getLsbD 56, btnB := w.getLsbD 57, btnX := w.getLsbD 58, btnY := w.getLsbD 59, btnStart := w.getLsbD 60,
      btnZ := w.getLsbD 52, btnR := w.getLsbD 53, btnL := w.getLsbD 54,
      dpadLeft := w.getLsbD 48, dpadRight := w.getLsbD 49, dpadDown := w.getLsbD 50, dpadUp := w.getLsbD 51,
      hat := hatOf (w.extractLsb' 48 4),
      lx := w.extractLsb' 40 8, ly := w.extractLsb' 32 8, rx := w.extractLsb' 24 8, ry := w.extractLsb' 16 8,
      lt := w.extractLsb' 8 8, rt := w.extractLsb' 0 8 } := by
  have hbyte0 (i : Fin 8) : (rawBytes w)[0].getLsbD i = w.getLsbD (56 + i) := getLsbD_byteAt w 56 i.isLt
  have hbyte1 (i : Fin 8) : (rawBytes w)[1].getLsbD i = w.getLsbD (48 + i) := getLsbD_byteAt w 48 i.isLt
  rw [padOf, ControllerState.mk.injEq]
  exact ⟨hbyte0 0, hbyte0 1, hbyte0 2, hbyte0 3, hbyte0 4, hbyte1 4, hbyte1 5, hbyte1 6, hbyte1 0, hbyte1 1, hbyte1 2,
    hbyte1 3, congrArg hatOf (lowNibble_byteAt w 48), rfl, rfl, rfl, rfl, rfl, rfl⟩

/-- Settles O17: DECODE shows the decoder's outputs for the value's eight bytes. -/
theorem decodeReadsItsBits : Obligations.DecodeReadsItsBits := by
  intro w s
  rw [exec_decodeRaw, showPad, padOf_rawBytes]
  rfl

end Sys2Proof.Proofs
end

section
/-! The hardware raises nothing (`60_exceptions.md` R240). -/

namespace Sys2Proof.Proofs

open Sys2Proof.Machine

/-- Settles O4: the invariant keeps the operands of the session layer in range, so the one refusal of the model, at the
start of a transfer (`30_encoding.md` R107 (c)), is not reached; every other arm answers a next state. -/
theorem stepNeverStops : Obligations.StepNeverStops := by
  intro s hinv
  have hstart : Startable s := startable_of_inv hinv
  exact step_next_of_startable hstart

end Sys2Proof.Proofs
end

section
/-! The reset pin (`70_reset_and_hazards.md` R270): its edge, as an equation, and the ports of the reset state. -/

namespace Sys2Proof.Proofs

open Sys2Proof.Machine

/-- With `rst = 1` a step is the edge of RESET alone. -/
theorem step_of_rst {s : State} (hr : (input s).rst = true) : step s = resetEdge s (exec .reset s) := by
  simp [step, hr]

/-- The decoder shows the all-zero raw state as no button pressed, the hat idle and every axis 0 (`43_decoder.md`
R222). -/
theorem padOf_replicate_zero : padOf (Vector.replicate 8 0#8) = .zero := by decide

/-- The ports of the reset state: the session layer is idle, `ID_RAW`, `RUMBLE` and `RAW` are zero, the codec is idle. -/
theorem outputs_resetOf (c : Config) : outputs (State.resetOf c) = .reset := by
  have hready : cmdReady (State.resetOf c) = true := (Laws.cmdReady_iff _).mpr rfl
  have hport : idRawPort (State.resetOf c) = 0#24 := by
    simp only [idRawPort, State.resetOf, Session.reset, Vector.getElem_replicate, BitVec.zero_append_zero]
  have hnonzero : idNonzero (State.resetOf c) = false := by
    rw [← Bool.not_eq_true, idNonzero_iff, hport]
    exact fun h => h rfl
  have hdrive : driveLow (State.resetOf c) = false := driveLow_of_not_sending nofun nofun
  rw [outputs, hready, hport, hnonzero, hdrive]
  exact congrArg (Outputs.mk true 0#24 false false · false) padOf_replicate_zero

/-- Settles O9: the edge of RESET loads the reset state, and the clock ticks. -/
theorem rstOverridesEverything : Obligations.RstOverridesEverything := by
  intro s hr
  refine ⟨?_, outputs_resetOf s.cfg⟩
  rw [step_of_rst hr, exec_reset]
  rfl

end Sys2Proof.Proofs
end

section
/-! The line between exchanges (`70_reset_and_hazards.md` R280, R281; `41_orchestrator.md` R177): the machine's
invariant and the codec's are kept together, under the inequality of R281, by every run. -/

namespace Sys2Proof.Proofs

open Sys2Proof.Machine

/-- What keeps the codec in step, each part of which needs the others. -/
structure InStep (s : State) : Prop where
  safe : s.RestartSafe
  inv : s.Inv
  codec : s.CodecInStep

theorem step_inStep {s t : State} (h : InStep s) (hst : step s = .next t) : InStep t where
  safe := by
    rw [State.RestartSafe, step_cfg hst]
    exact h.safe
  inv := stepKeepsInvariant s t h.inv hst
  codec := codecStaysInStep s t h.safe h.inv h.codec hst

/-- Settles O5: every run keeps the codec in step, so it is at rest in the four states outside the exchange; a codec
that sends nothing asserts nothing (`40_codec.md` R122). -/
theorem wireReleasedOutsideExchange : Obligations.WireReleasedOutsideExchange := by
  intro k s t hsafe hinv hcodec hrun ho
  obtain ⟨-, -, hrest, -⟩ := cycles_keeps step_inStep ⟨hsafe, hinv, hcodec⟩ hrun
  obtain ⟨hquiet, -⟩ : ¬ t.codec.sending ∧ t.txq = [] := by
    obtain ho | ho | ho | ho := ho <;> exact hrest (by simp [ho]) (by simp [ho]) (by simp [ho])
  exact ⟨driveLow_of_not_sending (fun hc => hquiet (.inr (.inl hc))) fun hc => hquiet (.inr (.inr hc)), hquiet⟩

end Sys2Proof.Proofs
end

section
/-! The decoder against the encoder (`30_encoding.md`): each format is read back from what the encoder writes, and so is
every well-formed operation. -/

namespace Sys2Proof.Proofs

/-! ### Host command words (R105) -/

/-- The operation a host operation stands for; IDENTIFY and POLL ignore `cmd_arg` (`30_encoding.md` R105, R107). -/
def hostOpInstr : HostOp → Bool → Instr
  | .identify, _ => .identify
  | .poll, _ => .poll
  | .setRumble, arg => .setRumble arg
  | .pollr, arg => .pollr arg

theorem hostOp_hostOpCode (op : HostOp) : hostOp (hostOpCode op) = op := by
  cases op <;> rfl

theorem decode_hostCmdWord (c : Config) (op : HostOp) (arg : Bool) :
    decode c (.hostCmd (hostCmdWord (hostOpCode op) arg)) = .ok (hostOpInstr op arg) := by
  rw [decode, decodeHostCmd, extractLsb'_hostCmdWord, getLsbD_zero_hostCmdWord, hostOp_hostOpCode]
  cases op <;> rfl

/-! ### The operands of a transfer (R107 (c)) -/

theorem decode_xfer {c : Config} {request : List Byte} {rslen : Nat} (h : operandsLegal c request.length rslen = true) :
    decode c (.xfer 1#1 request rslen) = .ok (.transfer request rslen) := by
  simp only [decode, if_true, h]

/-! ### TXQ words (R96, R97): the field is read whatever stands below it -/

theorem decode_txwFirst_append (c : Config) (l : BitVec 5) (x : BitVec 27) :
    decode c (.txwFirst (l ++ x)) = .ok (.txwC l) :=
  congrArg (fun l => Except.ok (Instr.txwC l)) (Laws.lenm1Of_append l x)

theorem decode_txwLater_append (c : Config) (b : Byte) (x : BitVec 24) :
    decode c (.txwLater (b ++ x)) = .ok (.txwD b) :=
  congrArg (fun b => Except.ok (Instr.txwD b)) (Laws.byteOf_append b x)

/-! ### Request frames (R98, R99): the two are told apart by their bytes -/

theorem decode_pollFrame (c : Config) (rumble : Bool) :
    decode c (.wireFrame (pollFrame rumble)) = .ok (.pollReq rumble) := by
  cases rumble <;> rfl

/-! ### Line symbols (R91 to R93): BIT0 and BIT1 differ at the sample, and STOP alone has no high cycle -/

/-- A slot ends high, since the long pulse is shorter than the slot (`00_scope.md` R9). -/
theorem true_mem_slotLevels (c : Config) (b : Bool) : true ∈ slotLevels c b := by
  obtain ⟨-, -, -, -, -, hss, hsl, hl, -⟩ := c.legal
  have hlow : tLow c b ≤ c.tLong := by
    cases b
    · exact le_rfl
    · exact (hss.trans hsl).le
  refine List.mem_of_getElem? (i := c.tLong) ?_
  rw [getElem?_slotLevels hl, decide_eq_true hlow]

theorem stopLevels_ne_slotLevels (c : Config) (b : Bool) : stopLevels c ≠ slotLevels c b := by
  intro h
  have hmem := true_mem_slotLevels c b
  rw [← h] at hmem
  exact Bool.noConfusion (List.eq_of_mem_replicate hmem)

theorem decodeSlot_bit0 (c : Config) : decodeSlot c (slotLevels c false) = .ok .bit0 := if_pos rfl

theorem decodeSlot_bit1 (c : Config) : decodeSlot c (slotLevels c true) = .ok .bit1 :=
  (if_neg (slotLevels_false_ne_true c).symm).trans (if_pos rfl)

theorem decodeSlot_stop (c : Config) : decodeSlot c (stopLevels c) = .ok .stop :=
  (if_neg (stopLevels_ne_slotLevels c false)).trans
    ((if_neg (stopLevels_ne_slotLevels c true)).trans (if_pos rfl))

/-! ### The round trip -/

/-- Settles O1: format by format. Well-formedness is what the decoder asks of a transfer's operands, and a configuration
keeps the three symbols apart. -/
theorem decodeEncodeRoundTrip : Obligations.DecodeEncodeRoundTrip := by
  intro c i hwf
  cases i with
  | identify => exact decode_hostCmdWord c .identify false
  | poll => exact decode_hostCmdWord c .poll false
  | setRumble arg => exact decode_hostCmdWord c .setRumble arg
  | pollr arg => exact decode_hostCmdWord c .pollr arg
  | transfer request rslen => exact decode_xfer hwf
  | txwC l => exact decode_txwFirst_append c l 0#27
  | txwD b => exact decode_txwLater_append c b 0#24
  | pollReq rumble => exact decode_pollFrame c rumble
  | bit0 => exact decodeSlot_bit0 c
  | bit1 => exact decodeSlot_bit1 c
  | stop => exact decodeSlot_stop c
  | currentState | decodeRaw _ | identifyReq | reset => rfl
  | armRestart | armCIdle | armCTxWait | armCTxBit | armCStop => rfl
  | armCRxHigh | armCRxArm | armCRxSettle | armCRxPush => rfl
  | armOIdle | armOReset | armOCtrl | armOReq | armOCollect | armOSpace | armODone => rfl
  | armSIdle | armSStart | armSWait => rfl

/-- Settles O60: a word the encoder writes is read back by the round trip, one with ignored bits by the lemma of its
format, and the two codes that no state has are refused. -/
theorem writtenOutWordsDecode : Obligations.WrittenOutWordsDecode := by
  intro c
  have encoded (i : Instr) (hi : wellFormed c i = true) : decode c (encode c i) = .ok i := decodeEncodeRoundTrip c i hi
  exact ⟨encoded .identify rfl, decode_hostCmdWord c .poll true, encoded (.setRumble true) rfl,
    encoded (.pollr false) rfl,
    fun x => ⟨decode_txwFirst_append c 2#5 x, decode_txwFirst_append c 31#5 x⟩, decode_txwLater_append c 0x41#8,
    encoded .identifyReq rfl, encoded (.pollReq true) rfl, encoded .armCRxSettle rfl, encoded .armOCollect rfl,
    encoded .armSWait rfl, rfl, rfl⟩

end Sys2Proof.Proofs
end

section
/-! The reset state meets both invariants (`10_state.md` R56, `70_reset_and_hazards.md` R271). -/

namespace Sys2Proof.Proofs

open Sys2Proof.Machine

/-- After reset the orchestrator is in `O_IDLE`, outside every exchange, and the codec is idle with nothing to send. -/
theorem resetOf_codecInStep (c : Config) : (State.resetOf c).CodecInStep := by
  have hidle : (State.resetOf c).orch.os = .oIdle := rfl
  have hquiet : ¬ (State.resetOf c).codec.sending := by simp [State.resetOf, Codec.reset]
  exact ⟨fun _ _ _ => ⟨hquiet, rfl⟩, by simp [State.CtrlInStep, hidle], by simp [State.ReqInStep, hidle],
    by simp [State.CollectInStep, hidle]⟩

/-- Settles O7: `State.reset` is the reset state of the reference configuration. -/
theorem resetMeetsInvariants : Obligations.ResetMeetsInvariants := by
  have hreset (c : Config) : (State.resetOf c).Inv ∧ (State.resetOf c).CodecInStep :=
    ⟨resetOf_inv c, resetOf_codecInStep c⟩
  exact ⟨hreset, hreset Config.reference⟩

end Sys2Proof.Proofs
end
